-- ==== Sys2Proof/Word.lean ====
section
/-! DEFINITION. The widths the module works in, and the sparse map that every indexed piece of state is held in. -/
namespace Sys2Proof

/-- Eight bits (R4: the byte at the lowest address holds bits [7:0]). -/
abbrev Byte := BitVec 8

/-- A 4-byte register, descriptor or payload word. -/
abbrev W32 := BitVec 32

/-- A counter or cinch value. -/
abbrev W64 := BitVec 64

/-- A 32 B word of memory (R215, R305): the unit that carries poison. -/
abbrev W256 := BitVec 256

/-- A map from numbers to values, held as pairs in rising order of the number. -/
abbrev SMap (α : Type) := List (Nat × α)

end Sys2Proof
end

