-- ==== Sys2Proof/Syntax.lean ====
section
/-! DEFINITION. The commands: the operand types, and `Instr` with one constructor for each row of spec/opcode_table.json.
The table gives its rows no fields, so the operands are the model's own (log 16): what the sender of the step must name. -/
namespace Sys2Proof

/-- A requester: 0 to 15 the dispatch cores, 16 and 17 the management cores, 18 BAR0 (R32, R474). -/
abbrev Req := Fin 19
/-- A module cluster number `k` (R14). -/
abbrev Cl := Fin 320
/-- A context (R361). -/
abbrev Ctx := Fin 64
/-- A region number (R189). -/
abbrev Rg := Fin 128

/-- A core: cluster `k`, logical row `i`, logical column `j` (R17, R18). -/
structure CoreId where
  k : Cl
  i : Fin 32
  j : Fin 32
deriving DecidableEq, Repr

/-- The link directions of a switchbox, in the order of R111 (0 north, 1 east, 2 south, 3 west). -/
inductive Dir where
  | north | east | south | west
deriving DecidableEq, Repr

/-- The engines of a core that consume tokens (R74), for STRAY_TOKEN. -/
inductive Engine where
  | dpe | le | ce
deriving DecidableEq, Repr

/-- The reset islands of R70. -/
inductive Island where
  | time | junction
  | management (m : Fin 2)
  | cxl | control
  | cluster (k : Cl)
  | mesh (d : Fin 8)
  | memorySide (d : Fin 8)
  | ioData (d : Fin 2)
  | trunk (t : Fin 6)
deriving DecidableEq, Repr

/-- Where a credit stands on its way upstream, for CREDIT_RETURN (R170 to R172). -/
inductive CreditPlace where
  /-- Pending at share (`q`, `f`) of core `c`. -/
  | share (c : CoreId) (q f : Fin 8)
  /-- Held in the switchbox of core `c` for route `r` of slot `f`. -/
  | held (c : CoreId) (f : Fin 8) (r : Fin 4)
  /-- On the credit lane of core `c`'s outgoing link `d`, of fold `f`. -/
  | lane (c : CoreId) (d : Dir) (f : Fin 8)
  /-- On the credit lane of an I/O seam line, of fold `f`. -/
  | line (io : Fin 2) (line : Fin 80) (f : Fin 8)
  /-- Owed to a line by the terminal TAP at place `i` of cluster `k` (R301). -/
  | tap (k : Cl) (i : Fin 2) (line : Fin 32)
  /-- Pending at the launch store of an outbound Harness channel (R439). -/
  | launch (l : Fin 48) (ch : Fin 32)
deriving DecidableEq, Repr

/-- A packet of the mesh: the header fields of R316, the data words of R315 (32 B each, in order) and the byte mask. -/
structure Packet where
  opcode : BitVec 8 := 0
  prio : Bool := false
  ctx : BitVec 6 := 0
  dest : BitVec 16 := 0
  src : BitVec 16 := 0
  tag : BitVec 10 := 0
  dmod : BitVec 14 := 0
  smod : BitVec 14 := 0
  hint : BitVec 2 := 0
  addr : BitVec 48 := 0
  len : BitVec 7 := 0
  status : BitVec 8 := 0
  rtag : BitVec 16 := 0
  count : BitVec 16 := 0
  sop : BitVec 2 := 0
  stype : BitVec 2 := 0
  rsvRows : BitVec 14 := 0
  placeRow : BitVec 13 := 0
  wordPoison : BitVec 64 := 0
  mask : Option (BitVec 512) := none
  data : List W256 := []
  /-- The header carries an uncorrectable ECC error (R315). -/
  badHeader : Bool := false
deriving DecidableEq, Repr

/-- Why a shed begins or ends (R410). -/
inductive ShedCause where
  | below48 | below44 | shedN
deriving DecidableEq, Repr

/-- What a thermal sensor belongs to (R425). -/
inductive ThermalUnit where
  | compute (d : Fin 8)
  | memorySide (d : Fin 8)
  | stack (n : Fin 24)
  | io (d : Fin 2)
deriving DecidableEq, Repr

/-- What the training of a link found (R446): the lanes locked here and at the peer, the peer's retired lanes and
identity, the round trips of this end's 16 echoes, and the peer's RTTown. -/
structure TrainInfo where
  locked : BitVec 4
  peerLocked : BitVec 4
  peerRetired : BitVec 4
  peerModule : BitVec 14
  peerTrunk : BitVec 3
  peerLink : BitVec 3
  rtts : List Nat
  peerRtt : Nat
deriving DecidableEq, Repr

/-- RTTown, the largest of the 16 round trips (R446 step 4). -/
def TrainInfo.rttOwn (i : TrainInfo) : Nat := (i.rtts.take 16).foldl max 0

/-- RTTmax, the larger of both ends' (R446 step 4). -/
def TrainInfo.rttMax (i : TrainInfo) : Nat := max i.rttOwn i.peerRtt

/-- Why a link retrains (R435). -/
inductive RetrainCause where
  | replayed8 | ackTimeout | lockLoss | peerTraining
deriving DecidableEq, Repr

/-- Where a hard fault lies (R484, R490). -/
inductive FaultSite where
  | core (c : CoreId)
  | cluster (k : Cl) (cause : Fin 3)
  | hbmRow (stack : Fin 24) (pc : Fin 32) (bank : Fin 16) (row : BitVec 15)
  | pseudoChannel (stack : Fin 24) (pc : Fin 32)
  | lane (l : Fin 48) (lane : Fin 4)
  | seamWire (seam : Fin 14) (pos : Fin 8) (link : Fin 9) (wire : BitVec 10) (dir : Bool)
  | package (p : Fin 16)
deriving DecidableEq, Repr

/-- Where a parity error lies in a core (R484). -/
inductive ParitySite where
  | queue (q : Fin 8) (n : Nat)
  | store (entry : Fin 128)
  | acc (n : Fin 16)
deriving DecidableEq, Repr

/-- Where a word in error is found (R215, R305, R315, R332, R484); `bad`: it is uncorrectable. -/
inductive UpsetSite where
  /-- A parity error in a core. -/
  | core (c : CoreId) (site : ParitySite)
  /-- A word of cluster `k`'s row memory. -/
  | row (k : Cl) (row : Fin 8192) (word : Fin 16) (bad : Bool)
  /-- An uncorrectable 32 B word of a stack, by its number there. -/
  | hbm (stack : Fin 24) (word : BitVec 31)
  /-- An uncorrectable word of a stack that lies in its die's reuse cache, in way `way`. -/
  | cache (stack : Fin 24) (word : BitVec 31) (way : Fin 16)
  /-- An uncorrectable word of an LPDDR5X package. -/
  | lpddr (p : Fin 16) (word : BitVec 31)
  /-- An uncorrectable value of a physical cinch. -/
  | cinch (n : BitVec 16)
  /-- A flit of the `n`-th packet that router `r` holds: its header, or a data word. -/
  | flit (r : Fin 322) (n : BitVec 8) (word : Option (Fin 64))
deriving DecidableEq, Repr

/-- A request that has no answer (R285). -/
inductive TimeoutSite where
  /-- Request `tag` of unit `u` of the cluster. -/
  | request (u : Fin 8) (tag : BitVec 10)
  /-- The Awl's request for element `n` of the descriptor at the head of its queue. -/
  | element (n : BitVec 24)
  /-- The fetch of the next record of a list: 0 work, 1 Stitch, 2 cinch. -/
  | list (l : Fin 3)
deriving DecidableEq, Repr

/-- A background bring-up step (R385, R175, R494). -/
inductive BringUp where
  | memorySide (d : Fin 8)
  | compute (d : Fin 8)
  | lpddr
  | seam (n : Fin 14) (posOk : BitVec 8) (meshOk : Bool)
deriving DecidableEq, Repr

/-- A retirement to apply (R486, R487). -/
inductive RetireUnit where
  | core (k : Cl) (column : Fin 32) (physRow : Fin 33)
  | cluster (k : Cl)
deriving DecidableEq, Repr

/-- One command of the module: one row of spec/opcode_table.json. -/
inductive Instr where
  /-- REGISTER_WRITE (R8): `req` writes `value` at BAR0 address `addr`. -/
  | registerWrite (req : Req) (addr : BitVec 28) (value : W32)
  /-- BAD_ACCESS (R32): an access of `size` bytes at `addr`, unassigned or of a wrong size or alignment. -/
  | badAccess (req : Req) (addr : BitVec 28) (size : Nat) (isWrite : Bool)
  /-- CTR_CLEAR (R40): writing CONTROL.CTR_CLEAR of page number `page` (BAR0 offset over 4 KiB). -/
  | ctrClear (req : Req) (page : BitVec 16)
  /-- COUNTER_LOW_READ (R38): a 4-byte read of counter `n`'s low word. -/
  | counterLowRead (req : Req) (page : BitVec 16) (n : BitVec 8)
  /-- EVENT_FORCE (R41). -/
  | eventForce (req : Req) (page : BitVec 16) (bits : W32)
  /-- EVENT_LATCH_CLEAR (R41). -/
  | eventLatchClear (req : Req) (page : BitVec 16) (bits : W32)
  /-- ERR_CAUSE_CLEAR (R37): writing 1 to ERR_CAUSE.VALID. -/
  | errCauseClear (req : Req) (page : BitVec 16)
  /-- LOCK_WRITE (R35). -/
  | lockWrite (req : Req) (page : BitVec 16) (value : W32)
  /-- INTERRUPT_OFFER (R48) of source `src`. -/
  | interruptOffer (src : BitVec 16)
  /-- CLAIM (R49): `req` reads target `t`'s CLAIM. -/
  | claim (req : Req) (t : Fin 19)
  /-- COMPLETE (R51): `req` writes `src` to target `t`'s COMPLETE. -/
  | complete (req : Req) (t : Fin 19) (src : BitVec 16)
  /-- SETTLE_END (R51): the settle beat of `src` ends. -/
  | settleEnd (src : BitVec 16)
  /-- OFFER_TIMEOUT (R50): the offer of `src` has stood 65,536 system cycles. -/
  | offerTimeout (src : BitVec 16)
  /-- MTSYNC_FRAME (R58): a 72-bit timecode frame has arrived. -/
  | mtsyncFrame (frame : BitVec 72)
  /-- EPOCH_CHECK (R58, R59): the counter reaches an epoch boundary by counting. -/
  | epochCheck
  /-- MTREF_LOSS (R64). -/
  | mtrefLoss
  /-- ISLAND_CIRCUIT_STOP (R64 step 3, R59): the beat boundary after the loss. -/
  | islandCircuitStop
  /-- MTREF_RETURN (R65): MTREF is back; `settled` when it has also been present for 256 beats. -/
  | mtrefReturn (settled : Bool)
  /-- COUNTER_LOAD (R65 step 3): the epoch boundary that the second frame names, as marked by MTREF. -/
  | counterLoad
  /-- REACQUIRE (R66): writing MT_CTRL.REACQUIRE. -/
  | reacquire (req : Req)
  /-- LOCAL_FORCE (R72): writing MT_CTRL.LOCAL_FORCE to `on`. -/
  | localForce (req : Req) (on : Bool)
  /-- CAL_POST (R62): writing `w3` to CAL_POST3 of calendar page `page`, for an action other than CANCEL. -/
  | calPost (req : Req) (page : BitVec 16) (w3 : W32)
  /-- CANCEL (R62): writing `w3`, with ACTION 0xFF, to CAL_POST3 of calendar page `page`. -/
  | cancel (req : Req) (page : BitVec 16) (w3 : W32)
  /-- FOLD_SWITCH (R195): cluster `k`'s next posted fold-switch entry reaches its beat. -/
  | foldSwitch (k : Cl)
  /-- REGION_COMMIT (R208): the commit beat of region `r`. -/
  | regionCommit (r : Rg)
  /-- TASK_START (R390): the start beat of region `r`'s task. -/
  | taskStart (r : Rg)
  /-- SCHEDULE_ENTRY (R196): cluster `k`'s next armed schedule entry reaches its beat. -/
  | scheduleEntry (k : Cl)
  /-- BARRIER_DEADLINE (R351): cluster `k`'s next barrier deadline reaches its beat. -/
  | barrierDeadline (k : Cl)
  /-- DOMAIN_RAISE (R415). -/
  | domainRaise (k : Cl)
  /-- DOMAIN_UP (R415): sixteen beats after a raise from OFF. -/
  | domainUp (k : Cl)
  /-- DOMAIN_LOWER (R415). -/
  | domainLower (k : Cl)
  /-- POWER_STEP_UP (R418). -/
  | powerStepUp
  /-- POWER_STEP_DOWN (R418). -/
  | powerStepDown
  /-- FORECAST (R421): the Bridle calendar's next forecast entry reaches its beat. -/
  | forecast
  /-- CIRCUIT_OPEN (R438) of trunk `t`'s calendar. -/
  | circuitOpen (t : Fin 6)
  /-- CIRCUIT_CLOSE (R438). -/
  | circuitClose (t : Fin 6)
  /-- CROSSING_TIMEOUT (R69): a handshake waited on by page `page`'s block, and the request whose transfer is abandoned. -/
  | crossingTimeout (page : BitVec 16) (request : Option Packet)
  /-- ISLAND_RESET (R71). -/
  | islandReset (i : Island)
  /-- DPE_FIRE (R122): the DPE's firing opportunity. -/
  | dpeFire (c : CoreId)
  /-- LE_FIRE (R127). -/
  | leFire (c : CoreId)
  /-- STEER (R96). -/
  | steer (c : CoreId)
  /-- MERGE (R96). -/
  | merge (c : CoreId)
  /-- FORWARD (R96). -/
  | forward (c : CoreId)
  /-- DPE_EMISSION (R101): the next due emission token leaves the DPE. -/
  | dpeEmission (c : CoreId)
  /-- STRAY_TOKEN (R97): a token of the wrong kind heads an operand of engine `e`. -/
  | strayToken (c : CoreId) (e : Engine)
  /-- TOKEN_ARRIVAL (R79): the next result or delivery in flight to core `c` lands. -/
  | tokenArrival (c : CoreId)
  /-- PORT_LAUNCH (R167). -/
  | portLaunch (c : CoreId) (p : Fin 4)
  /-- TOKEN_HOP (R166): a token is presented to `c`'s switchbox on the link `d`. -/
  | tokenHop (c : CoreId) (d : Dir)
  /-- CREDIT_RETURN (R170): a credit moves on from the place named. -/
  | creditReturn (p : CreditPlace)
  /-- SLACK_ROW_WRITE (R180) of fold `f`'s slack path. -/
  | slackRowWrite (c : CoreId) (f : Fin 8)
  /-- SLACK_ROW_READ (R180). -/
  | slackRowRead (c : CoreId) (f : Fin 8)
  /-- DEADLOCK_WATCH (R185): region `r` has been idle for 64 beats. -/
  | deadlockWatch (r : Rg)
  /-- LATTICE_FEED_READ (R150). -/
  | latticeFeedRead (k : Cl)
  /-- GANG_ROUND (R152): a round boundary of cluster `k`'s gang. -/
  | gangRound (k : Cl)
  /-- GANG_DRAIN (R156). -/
  | gangDrain (k : Cl)
  /-- DONE_TOKEN (R159). -/
  | doneToken (k : Cl)
  /-- RESERVE_REGION (R374): context `x`'s fetched command with sequence number `seq`. -/
  | reserveRegion (x : Ctx) (seq : W32)
  /-- RELEASE_REGION (R374). -/
  | releaseRegion (x : Ctx) (seq : W32)
  /-- RELEASE_CLEAR (R191): the clear of region number `r`'s released clusters completes. -/
  | releaseClear (r : Rg)
  /-- LOAD_SECTION (R201). -/
  | loadSection (x : Ctx) (seq : W32)
  /-- LOAD_DRAIN_START (R202): boundary L0 of region `r`'s load. -/
  | loadDrainStart (r : Rg)
  /-- DRAIN_FOLD_MOVE (R203) of cluster `k`. -/
  | drainFoldMove (k : Cl)
  /-- REGION_CLOSE (R204): boundary Ld. -/
  | regionClose (r : Rg)
  /-- DRAIN_TIMEOUT (R203). -/
  | drainTimeout (r : Rg)
  /-- SECTION_STAGING (R206): every cluster of region `r` stages and checks its block. -/
  | sectionStaging (r : Rg)
  /-- CONFIG_LOAD_WRITE (R207). -/
  | configLoadWrite (r : Rg)
  /-- RUN_TASK (R389). -/
  | runTask (x : Ctx) (seq : W32)
  /-- FENCE (R371). -/
  | fence (x : Ctx) (seq : W32)
  /-- CMD_CINCH_SET (R343): the host command CINCH_SET. -/
  | cmdCinchSet (x : Ctx) (seq : W32)
  /-- CMD_CINCH_ADD (R343): the host command CINCH_ADD. -/
  | cmdCinchAdd (x : Ctx) (seq : W32)
  /-- CINCH_WAIT (R379). -/
  | cinchWait (x : Ctx) (seq : W32)
  /-- CINCH_WAIT_TIMEOUT (R379). -/
  | cinchWaitTimeout (x : Ctx) (seq : W32)
  /-- COPY (R380). -/
  | copy (x : Ctx) (seq : W32)
  /-- FILL (R380). -/
  | fill (x : Ctx) (seq : W32)
  /-- QUERY (R381). -/
  | query (x : Ctx) (seq : W32)
  /-- SAVE_CONTEXT (R382). -/
  | saveContext (x : Ctx) (seq : W32)
  /-- RESTORE_CONTEXT (R383). -/
  | restoreContext (x : Ctx) (seq : W32)
  /-- SET_BUDGET (R418). -/
  | setBudget (x : Ctx) (seq : W32)
  /-- ARBITER_GRANT (R217): port `p` of cluster `k` decides, `reqs` being issued in this cycle. -/
  | arbiterGrant (k : Cl) (p : Fin 2) (unmarked : Bool)
  /-- SCOREBOARD_RELEASE (R225): the held read of requester `r`. -/
  | scoreboardRelease (k : Cl) (r : Fin 15)
  /-- HANDLE_WRITE (R228): word 0 HND_BASE, 1 HND_NOTE, 2 HND_RING of handle `h`. -/
  | handleWrite (req : Req) (k : Cl) (h : Fin 64) (word : Fin 3) (value : W32)
  /-- FC_POST (R230): writing `w3` to FC_POST3. -/
  | fcPost (req : Req) (k : Cl) (w3 : W32)
  /-- ROW_FILL (R230): the FILL request at the head of the engine's queue runs. -/
  | rowFill (k : Cl)
  /-- ROW_COPY (R230). -/
  | rowCopy (k : Cl)
  /-- REMOTE_WRITE (R232). -/
  | remoteWrite (p : Packet)
  /-- REMOTE_READ (R232). -/
  | remoteRead (p : Packet)
  /-- NOTIFICATION_SEND (R235) of handle `h`. -/
  | notificationSend (k : Cl) (h : Fin 64)
  /-- RING_RESERVE (R237). -/
  | ringReserve (p : Packet)
  /-- RING_PLACE (R319). -/
  | ringPlace (p : Packet)
  /-- RING_RETRY (R319). -/
  | ringRetry (p : Packet)
  /-- RING_RELEASE (R238): a write of `rows` to HND_REL of handle `h`. -/
  | ringRelease (req : Req) (k : Cl) (h : Fin 64) (rows : BitVec 14)
  /-- RING_WAIT_TIMEOUT (R239): the oldest reservation waiting on ring `h`. -/
  | ringWaitTimeout (k : Cl) (h : Fin 64)
  /-- GATHER (R242): the Awl descriptor at the head of its queue. -/
  | gather (k : Cl)
  /-- FE_DESCRIPTOR_START (R249). -/
  | feDescriptorStart (k : Cl) (e : Fin 4)
  /-- FE_DESCRIPTOR_DONE (R249). -/
  | feDescriptorDone (k : Cl) (e : Fin 4)
  /-- GRANULE_WRITE (R277): a write to GRN_DATA of an MSD page (`io` false) or IO_DIE page. -/
  | granuleWrite (req : Req) (io : Bool) (d : Fin 8) (value : W32)
  /-- RC_PROBE (R280). -/
  | rcProbe (req : Req) (d : Fin 8)
  /-- KEEP_CLEAR (R279). -/
  | keepClear (req : Req) (d : Fin 8)
  /-- READ (R318): a read request packet reaches its responder. -/
  | read (p : Packet)
  /-- WRITE (R318). -/
  | write (p : Packet)
  /-- READ_DATA (R318). -/
  | readData (p : Packet)
  /-- WRITE_ACK (R284). -/
  | writeAck (p : Packet)
  /-- ERROR (R285). -/
  | error (p : Packet)
  /-- REQUEST_TIMEOUT (R285): a request of cluster `k`. -/
  | requestTimeout (k : Cl) (site : TimeoutSite)
  /-- RECORD_DISPATCH (R287): the next record of cluster `k`'s work list. -/
  | recordDispatch (k : Cl)
  /-- STREAM_START (R290): the stream descriptor at the head of cluster `k`'s queue. -/
  | streamStart (k : Cl)
  /-- LOAD_Q_TOKEN (R292). -/
  | loadQToken (k : Cl) (slot : Fin 16)
  /-- STREAM_DONE (R295). -/
  | streamDone (k : Cl) (slot : Fin 16)
  /-- TASK_STOP (R297 step 2). -/
  | taskStop (r : Rg)
  /-- TASK_END_EARLY (R297 step 4). -/
  | taskEndEarly (r : Rg)
  /-- TASK_END (R392). -/
  | taskEnd (r : Rg)
  /-- BEAT_LIMIT (R393). -/
  | beatLimit (r : Rg)
  /-- TAP (R301): the next laced row of cluster `k`'s TAP descriptor at `n`. -/
  | tap (k : Cl) (n : Fin 2)
  /-- SOURCE (R302). -/
  | source (k : Cl) (n : Fin 2)
  /-- SCRUB_CHUNK (R306): scrubber `u` of die `d`, 0 to 2 the stacks, 3 the reuse cache. `found`: the words in error, by
home-view address over 32; `true` where uncorrectable. -/
  | scrubChunk (d : Fin 8) (u : Fin 4) (found : List (BitVec 35 × Bool))
  /-- SCRUB_AUDIT (R483). -/
  | scrubAudit (d : Fin 8)
  /-- PACKET_HOP (R310): output `out` of router `r` (320 and 321 the hubs) grants; 6 + y is a hub's link toward row y of the grid. -/
  | packetHop (r : Fin 322) (out : Fin 16)
  /-- STITCH (R321): a Stitch packet enters the store of router `r`. -/
  | stitch (r : Fin 322) (p : Packet)
  /-- STITCH_HOLD_EXPIRY (R321): the oldest held packet of router `r`. -/
  | stitchHoldExpiry (r : Fin 322)
  /-- STITCH_COMBINE (R324). -/
  | stitchCombine (p : Packet)
  /-- STITCH_ACK (R323). -/
  | stitchAck (p : Packet)
  /-- SEND (R328): the Stitch list's next descriptor of cluster `k`. -/
  | send (k : Cl)
  /-- REG_READ (R317). -/
  | regRead (p : Packet)
  /-- REG_WRITE (R317). -/
  | regWrite (p : Packet)
  /-- CINCH_ADD (R335). -/
  | cinchAdd (p : Packet)
  /-- CINCH_SET (R335). -/
  | cinchSet (p : Packet)
  /-- CINCH_READ (R335). -/
  | cinchRead (p : Packet)
  /-- CINCH_WATCH (R339). -/
  | cinchWatch (p : Packet)
  /-- CINCH_CANCEL (R335). -/
  | cinchCancel (p : Packet)
  /-- CINCH_ARRIVE (R348). -/
  | cinchArrive (p : Packet)
  /-- CINCH_RESP (R335). -/
  | cinchResp (p : Packet)
  /-- CINCH_WAKE (R340). -/
  | cinchWake (p : Packet)
  /-- WAKE_TOKEN_WRITE (R341). -/
  | wakeTokenWrite (k : Cl)
  /-- BARRIER_RELEASE (R349). -/
  | barrierRelease (p : Packet)
  /-- CINCH_LIST_ISSUE (R346). -/
  | cinchListIssue (k : Cl)
  /-- RETRY_REPRESENT (R346). -/
  | retryRepresent (k : Cl)
  /-- WAKE_POP (R343): `req` reads WAKE_POP of dispatch core `t`. -/
  | wakePop (req : Req) (t : Fin 16)
  /-- WAKE_RETARGET (R344): a write to WAKE_RETARGET of unit `u`. -/
  | wakeRetarget (req : Req) (u : Fin 2) (value : W32)
  /-- XLT_WRITE (R334): a write to XLT_DATA of unit `u`. -/
  | xltWrite (req : Req) (u : Fin 2) (value : W32)
  /-- CONTEXT_ENABLE (R362): a write to CTX_CTRL that sets ENABLE. -/
  | contextEnable (req : Req) (x : Ctx) (value : W32)
  /-- CONTEXT_DISABLE (R362): a write to CTX_CTRL that clears ENABLE. -/
  | contextDisable (req : Req) (x : Ctx) (value : W32)
  /-- SQ_DOORBELL (R363). -/
  | sqDoorbell (req : Req) (x : Ctx) (value : W32)
  /-- CQ_DOORBELL (R367). -/
  | cqDoorbell (req : Req) (x : Ctx) (value : W32)
  /-- DESCRIPTOR_FETCH (R364). -/
  | descriptorFetch (x : Ctx)
  /-- COMPLETION_WRITE (R366). -/
  | completionWrite (x : Ctx)
  /-- XLT_INVAL (R360). -/
  | xltInval (req : Req) (x : Ctx)
  /-- BIAS_CHANGE (R358). -/
  | biasChange (req : Req) (value : W32)
  /-- CXL_MEM_REQUEST (R357): range 0 or 1, byte offset `off`; a 64 B read, or a write of `data`. -/
  | cxlMemRequest (range : Fin 2) (off : BitVec 40) (data : Option (List Byte))
  /-- CONTEXT_MOVE (R388). -/
  | contextMove (x : Ctx)
  /-- GRANT_REQUEST (R420). -/
  | grantRequest
  /-- GRANT_ARRIVAL (R389). -/
  | grantArrival
  /-- BE_WITHDRAW (R395). -/
  | beWithdraw
  /-- HOLD (R396): writing SCHED_CTRL.HOLD. -/
  | hold (req : Req) (x : Ctx) (on : Bool)
  /-- AFFINITY_PROBE (R398). -/
  | affinityProbe (req : Req) (x : Ctx)
  /-- SHED_ENTRY (R410). -/
  | shedEntry (cause : ShedCause)
  /-- SHED_END (R410). -/
  | shedEnd (cause : ShedCause)
  /-- QUIESCE (R412). -/
  | quiesce
  /-- LIMITER_TRIP (R424): the input exceeded the peak cap (`overPeak`) or, for 19,000 samples, the continuous cap. -/
  | limiterTrip (overPeak : Bool)
  /-- THERMAL_WARNING (R425): unit `u` reads `temp` °C. -/
  | thermalWarning (u : ThermalUnit) (temp : Int)
  /-- THERMAL_TRIP (R425). -/
  | thermalTrip (u : ThermalUnit) (temp : Int)
  /-- THERMAL_TRIP_END (R425). -/
  | thermalTripEnd (u : ThermalUnit)
  /-- THERMAL_CRITICAL (R425). -/
  | thermalCritical (u : ThermalUnit) (temp : Int)
  /-- MGMT_STALE (R419). -/
  | mgmtStale
  /-- HEARTBEAT (R419): a write to BR_MGMT_BEAT. -/
  | heartbeat (req : Req)
  /-- FORECAST_MESSAGE (R422): `notice` false a forecast, true a shed notice. -/
  | forecastMessage (notice : Bool)
  /-- RESERVE_POWER_TIMEOUT (R415). -/
  | reservePowerTimeout (x : Ctx) (seq : W32)
  /-- DATA_FRAME (R434): a 400 B frame arrives on link `l`. -/
  | dataFrame (l : Fin 48) (frame : BitVec 3200)
  /-- REPLAY (R434): a NAK arrives with ACK `ack`. -/
  | replay (l : Fin 48) (ack : BitVec 12)
  /-- RETRAIN (R435). -/
  | retrain (l : Fin 48) (cause : RetrainCause)
  /-- LINK_TRAINING (R446): the training of `l` ends, `none` when a step found no peer in time. -/
  | linkTraining (l : Fin 48) (info : Option TrainInfo)
  /-- TRAINING_RESTART (R449). -/
  | trainingRestart (l : Fin 48)
  /-- LANE_FAIL (R447). -/
  | laneFail (l : Fin 48) (lane : Fin 4)
  /-- LINK_ENABLE (R448). -/
  | linkEnable (req : Req) (l : Fin 48)
  /-- LINK_DISABLE (R448). -/
  | linkDisable (req : Req) (l : Fin 48)
  /-- LANE_TEST (R450). -/
  | laneTest (req : Req) (l : Fin 48) (lane : Fin 4) (value : W32)
  /-- CIRCUIT_TOKEN (R440): the oldest token of channel `ch` moves: outbound into the link, inbound onto the seam. -/
  | circuitToken (l : Fin 48) (ch : Fin 32) (inbound : Bool)
  /-- CROSS_MODULE_PACKET (R444): hub `d`, the packet and, when it came over a link, that trunk and its set B. -/
  | crossModulePacket (d : Fin 2) (p : Packet) (fromTrunk : Option (Fin 6)) (setB : Bool)
  /-- ROUTE_WRITE (R443). -/
  | routeWrite (req : Req) (d : Fin 2) (value : W32)
  /-- HARNESS_DONE (R449): `timedOut` when 10 s have passed. -/
  | harnessDone (timedOut : Bool)
  /-- POWER_ON (R426): straps, whether the PUF reconstructs, the custody inputs, and whether MTREF is present (R72). -/
  | powerOn (straps : BitVec 14) (pufOk svcClosed sealOk mtref : Bool)
  /-- SLOT_VERIFY (R458). -/
  | slotVerify
  /-- IO_ENABLE (R453). -/
  | ioEnable
  /-- BOOT_RELEASE (R453). -/
  | bootRelease
  /-- PERST_ASSERT (R455). -/
  | perstAssert
  /-- PERST_RELEASE (R454). -/
  | perstRelease
  /-- MGMT_WATCHDOG (R456): core `m` misses the other's heartbeat and resets the other's island. -/
  | mgmtWatchdog (m : Fin 2)
  /-- CONFIRM (R459). -/
  | confirm (req : Req)
  /-- FLOOR_RAISE (R476). -/
  | floorRaise (req : Req) (v : BitVec 10)
  /-- FLOOR_SET (R476). -/
  | floorSet (req : Req) (v : BitVec 10)
  /-- GET_CERTS (R469). -/
  | getCerts (tag : Byte)
  /-- ATTEST (R470). -/
  | attest (tag : Byte) (nonce : BitVec 256)
  /-- GET_STATUS (R469). -/
  | getStatus (tag : Byte)
  /-- REPLACE_TREE (R468). -/
  | replaceTree (tag : Byte)
  /-- REKEY (R468). -/
  | rekey (tag : Byte)
  /-- LOAD_DIK_CERT (R468). -/
  | loadDikCert (tag : Byte) (cert : List Byte)
  /-- SET_FLOOR (R469). -/
  | setFloor (tag : Byte) (floor : BitVec 16)
  /-- FORECAST_RECEIVED (R469): a received message of code 0x20. -/
  | forecastReceived (body : List Byte)
  /-- BUTTON_PRESS (R471). -/
  | buttonPress
  /-- WINDOW_END (R471). -/
  | windowEnd
  /-- SEAL_OPEN (R473). -/
  | sealOpen
  /-- SPARE_REMOVE (R491). -/
  | spareRemove (req : Req) (index : BitVec 15)
  /-- FPROG_ASSERT (R505). -/
  | fprogAssert
  /-- FPROG_RELEASE (R505). -/
  | fprogRelease
  /-- HARD_FAULT (R484). -/
  | hardFault (f : FaultSite)
  /-- PARITY_ERROR (R215, R305, R332, R484): a read finds a word in error. -/
  | parityError (site : UpsetSite)
  /-- RETIREMENT (R487). -/
  | retirement (u : RetireUnit)
  /-- ROW_REPAIR (R492). -/
  | rowRepair (stack : Fin 24) (pc : Fin 32) (bank : Fin 16) (row : BitVec 15)
  /-- FATAL_ERROR (R497): a fatal error of code `code` recorded in page `page`. -/
  | fatalError (page : BitVec 16) (code : Byte)
  /-- MODULE_RESET (R377). -/
  | moduleReset
  /-- SELF_TEST (R495): a write to ST_CTRL with START. -/
  | selfTest (req : Req) (k : Cl)
  /-- SELF_TEST_END (R495). -/
  | selfTestEnd (k : Cl) (pass : Bool)
  /-- LIMITER_END (R424). -/
  | limiterEnd
  /-- SVC_STRAP_CHANGE (R471). -/
  | svcStrapChange (closed : Bool)
  /-- SEAL_INTACT (R471). -/
  | sealIntact
  /-- MSIX_UNMASK (R368). -/
  | msixUnmask (v : Fin 65)
  /-- TEL_CLEAR (R518): TELEMETRY page of cluster `k`, column `j`. -/
  | telClear (req : Req) (k : Cl) (j : Fin 32)
  /-- AFFINITY_PROBE_DONE (R398). -/
  | affinityProbeDone (x : Ctx)
  /-- RC_PROBE_DONE (R280). -/
  | rcProbeDone (d : Fin 8)
  /-- WAKE_RETARGET_DONE (R344). -/
  | wakeRetargetDone (u : Fin 2)
  /-- BRING_UP_STEP (R385). -/
  | bringUpStep (b : BringUp)
  /-- MIRROR_REFRESH (R22). -/
  | mirrorRefresh
deriving DecidableEq, Repr

end Sys2Proof
end

