-- ==== Sys2Proof/Decode.lean ====
section
/-! DEFINITION. Decoding. No row of the opcode table gives bits: the module takes commands, not instruction words, so no word
spells one (log 16). -/
namespace Sys2Proof

/-- The command that a table word spells: none, for every row. -/
def decodeTableWord (_nbits _w : Nat) : Option Instr := none

end Sys2Proof
end

