-- ==== Sys2Proof/Config.lean ====
section
/-! DEFINITION. What the manual leaves open: the free values (constants without a body, so that nothing can be proved of
their value) and the constants that an implementation fixes. -/
namespace Sys2Proof.Config

/-- Contents of row `r` of cluster `k` that the manual calls undefined (R214), for free index `n`. Log 7. -/
opaque freeRow : (n k r : Nat) → BitVec 4096

/-- Contents of an undefined core-store entry (R104), for free index `n`. Log 8. -/
opaque freeStore : (n entry : Nat) → BitVec 128

/-- Contents of a tile element at a task start or commit (R265), for free index `n`. Log 9. -/
opaque freeTile : (n tile element : Nat) → BitVec 32

/-- A byte of an overlapping COPY (R380), for free index `n`. Log 14. -/
opaque freeCopyByte : (n offset : Nat) → BitVec 8

/-- A byte of device memory whose only copy a module reset lost in a reuse cache (R377), for free index `n`. Log 18. -/
opaque freeLost : (n addr : Nat) → BitVec 8

/-- A byte of a row that overlapping FE tensors leave to latch timing (R254), for free index `n`. Log 9. -/
opaque freeRowBits : (n k row : Nat) → BitVec 4096

/-- Cycles of a gather in which 64 requests were in flight (R244), for free index `n`. Log 36. -/
opaque awlFull : (n : Nat) → Nat

/-- Index rows that the Awl had read ahead when it stopped (R242), for free index `n`. Log 36. -/
opaque awlAhead : (n : Nat) → Nat

/-- Cycles for which an FE's chain stalled on its latches during a descriptor (R266, R270), for free index `n`. Log 9. -/
opaque feStalls : (n : Nat) → Nat

/-- Which of the free region numbers the region manager assigns (R189), for free index `n`. Log 19. -/
opaque regionPick : (n : Nat) → Nat

/-- Beats beyond the 64 of R421 by which firmware announces a rise, for the `n`-th message. Log 21. -/
opaque forecastLead : (n : Nat) → Nat

/-- The TABLE stage's fixed function of its input (R258) where the manual gives a bound and no value. Log 11. -/
opaque tableFn : (op : Nat) → BitVec 32 → BitVec 32

/-- The reuse cache's set index of a line (R278: a fixed function of stack and local address). Log 12. -/
opaque rcSet : (stack line : Nat) → Nat

/-- `PAGE_REV[15:0]`, the block's revision number (R29). Log 10. -/
opaque blockRevision : (blockType : Nat) → BitVec 16

/-- Vilythen's enterprise number, `MGMT_IANA` (R469). Log 10. -/
opaque enterpriseNumber : BitVec 32

/-- SHAKE256 with 256-bit output, of a message given as bytes (R457 and others). Log 13. -/
opaque shake256 : List (BitVec 8) → BitVec 256

/-- The signature that index `i` of tree serial `serial` of key `dik` makes over a message (R462). Log 13. -/
opaque signature : (dik : Bool) → (serial i : Nat) → List (BitVec 8) → List (BitVec 8)

/-- The public key of a tree (R462). Log 13. -/
opaque publicKey : (dik : Bool) → (serial : Nat) → List (BitVec 8)

/-- The device certificate that the vendor issued (R462). Log 13. -/
opaque deviceCertificate : List (BitVec 8)

/-- The attestation-key certificate that the vendor issued (R462). Log 13. -/
opaque akCertificate : List (BitVec 8)

/-- The self-certificate of the device key with tree serial `serial` (R468). Log 13. -/
opaque selfCertificate : (serial : Nat) → List (BitVec 8)

/-- The level that SEAL_OUT drives in a custody sample, by power-on and sample (R506). Log 49. -/
opaque sealLevel : (boots sample : Nat) → Bool

/-- The value of a compute die's internal signal in cycle 0 of the round that began at cycle `start` (R509). Log 49. -/
opaque probeSignal : (die signal start : Nat) → Bool

/-- Management cycles that Sorrel takes for a request of code `code` that arrives at cycle `clock` (R469, R470). Log 26. -/
opaque requestCycles : (clock code : Nat) → Nat

/-- Samples left in the open button window less one, when it is read at cycle `clock` (R471, R478). Log 26. -/
opaque windowLeft : (clock : Nat) → Nat

/-- What a lane's pattern generator has sent before its test begins, newest bit first, by lane (R450; log 43). -/
opaque generatorStart : Nat → List Bool

/-- Whether the checker of a lane that receives from its line has locked, by lane and cycle (R450; log 43). -/
opaque checkerLock : Nat → Nat → Bool

/-- The input monitor's reading when BR_INPUT is read at cycle `clock` (R427). Log 15. -/
opaque inputReading : (clock : Nat) → BitVec 32

/-- The digest of the change that a custody record carries (R475), for the n-th record. Log 13. -/
opaque custodyDigest : (n : Nat) → BitVec 256

/-- The raw reading of meter `key` (256 × page + counter) for beat `n`, in µJ (R416). Log 15. -/
opaque meter : (n key : Nat) → Nat

end Sys2Proof.Config
end

