-- ==== Sys2Proof/Machine/Bits.lean ====
section
/-! DEFINITION. Bit fields, byte order (R4), and the sparse maps of the state. -/
namespace Sys2Proof.Machine

/-- Bits [hi:lo] of a number, as a number. -/
def field (w hi lo : Nat) : Nat := (w >>> lo) % 2 ^ (hi + 1 - lo)

/-- Bit `n` of a number. -/
def bitAt (w n : Nat) : Bool := w.testBit n

/-- A truth value as a bit. -/
def ofBool (b : Bool) : Nat := if b then 1 else 0

/-- Bits [hi:lo] of `w` replaced by `v`. -/
def setField (w hi lo v : Nat) : Nat :=
  w - (field w hi lo) <<< lo + (v % 2 ^ (hi + 1 - lo)) <<< lo

/-- The mask of bits [hi:lo]. -/
def maskBits (hi lo : Nat) : Nat := (2 ^ (hi + 1 - lo) - 1) <<< lo

/-- `v` read as a two's-complement number of `n` bits. -/
def signedOf (v n : Nat) : Int := if v % 2 ^ n < 2 ^ (n - 1) then (v % 2 ^ n : Nat) else ((v % 2 ^ n : Nat) : Int) - 2 ^ n

/-- The `n`-bit two's-complement word of an integer. -/
def toWord (n : Nat) (x : Int) : Nat := (x % (2 ^ n : Nat)).toNat

/-- `x` kept within [lo, hi]. -/
def clampInt (lo hi x : Int) : Int := if x < lo then lo else if hi < x then hi else x

/-- A number as `n` bytes, little-endian (R4). -/
def toBytes : (n : Nat) → (w : Nat) → List Byte
  | 0, _ => []
  | n + 1, w => BitVec.ofNat 8 w :: toBytes n (w / 256)

/-- Bytes as a number, little-endian (R4). -/
def ofBytes : List Byte → Nat
  | [] => 0
  | b :: bs => b.toNat + 256 * ofBytes bs

/-- The numbers 0 to n - 1 in rising order. -/
def upto (n : Nat) : List Nat := List.range n

namespace SMap
variable {α : Type}

/-- The value at key `k`, if one is held. -/
def get? : SMap α → Nat → Option α
  | [], _ => none
  | (j, a) :: m, k => if j = k then some a else get? m k

/-- The value at key `k`, or `d`. -/
def getD (m : SMap α) (k : Nat) (d : α) : α := (get? m k).getD d

/-- The map with `v` at key `k`; keys stay in rising order. -/
def put : SMap α → Nat → α → SMap α
  | [], k, v => [(k, v)]
  | (j, a) :: m, k, v =>
    if j = k then (k, v) :: m
    else if k < j then (k, v) :: (j, a) :: m
    else (j, a) :: put m k v

/-- The map without key `k`. -/
def del (m : SMap α) (k : Nat) : SMap α := m.filter fun p => p.1 ≠ k

/-- The value at `k` changed by `f`, with `d` where none is held. -/
def mod (m : SMap α) (k : Nat) (d : α) (f : α → α) : SMap α := put m k (f (getD m k d))

/-- Every value changed by `f`. -/
def mapAll (m : SMap α) (f : α → α) : SMap α := m.map fun p => (p.1, f p.2)

end SMap

/-- The least element of a list of numbers. -/
def listMin? : List Nat → Option Nat
  | [] => none
  | x :: xs => match listMin? xs with
    | none => some x
    | some y => some (min x y)

/-- Element `n` of a list replaced by `v`; a number past the end changes nothing. -/
def listSet {α : Type} : List α → Nat → α → List α
  | [], _, _ => []
  | _ :: xs, 0, v => v :: xs
  | x :: xs, n + 1, v => x :: listSet xs n v

/-- The list without its element `n`. -/
def listDrop {α : Type} : List α → Nat → List α
  | [], _ => []
  | _ :: xs, 0 => xs
  | x :: xs, n + 1 => x :: listDrop xs n

/-- The list without the first element equal to `a`. -/
def listErase {α : Type} [DecidableEq α] : List α → α → List α
  | [], _ => []
  | x :: xs, a => if x = a then xs else x :: listErase xs a

/-- A fold of a state over a list. -/
def forEach {α σ : Type} (xs : List α) (s : σ) (f : σ → α → σ) : σ := xs.foldl f s

/-- Some element of the list, the first for which `p` holds. -/
def firstSome {α : Type} (p : α → Bool) : List α → Option α
  | [] => none
  | x :: xs => if p x then some x else firstSome p xs

end Sys2Proof.Machine
end

