-- ==== Sys2Proof/Machine/Numbers.lean ====
section
/-! DEFINITION. Number formats, rounding, dot products, lane arithmetic and conversion (spec/05, R112 to R141).
A finite value is held exactly, as a sign, a magnitude `m` and a power of two `e`. -/
namespace Sys2Proof.Machine

/-- The formats of R112. -/
inductive Fmt where
  | e4m3 | e5m2 | e2m1 | e3m0 | t2 | int8 | uint8 | int4 | uint4 | bf16 | fp16 | fp32 | int32
deriving DecidableEq, Repr

/-- The format of a 4-bit code; 0xD to 0xF are reserved (R112). -/
def fmtOfCode : Nat → Option Fmt
  | 0 => some .e4m3 | 1 => some .e5m2 | 2 => some .e2m1 | 3 => some .e3m0 | 4 => some .t2
  | 5 => some .int8 | 6 => some .uint8 | 7 => some .int4 | 8 => some .uint4 | 9 => some .bf16
  | 10 => some .fp16 | 11 => some .fp32 | 12 => some .int32 | _ => none

/-- Bits per element (R112). -/
def fmtBits : Fmt → Nat
  | .e4m3 | .e5m2 | .int8 | .uint8 => 8
  | .e2m1 | .e3m0 | .int4 | .uint4 => 4
  | .t2 => 2
  | .bf16 | .fp16 => 16
  | .fp32 | .int32 => 32

/-- Exponent bits, mantissa bits and bias of a floating format; `none` for integers and T2. -/
def fmtFloat : Fmt → Option (Nat × Nat × Nat)
  | .e4m3 => some (4, 3, 7)
  | .e5m2 => some (5, 2, 15)
  | .e2m1 => some (2, 1, 1)
  | .e3m0 => some (3, 0, 3)
  | .bf16 => some (8, 7, 127)
  | .fp16 => some (5, 10, 15)
  | .fp32 => some (8, 23, 127)
  | _ => none

/-- The range of an integer format or T2 (R118, R119). -/
def fmtRange : Fmt → Int × Int
  | .t2 => (-1, 1)
  | .int8 => (-128, 127) | .uint8 => (0, 255)
  | .int4 => (-8, 7) | .uint4 => (0, 15)
  | .int32 => (-2147483648, 2147483647)
  | _ => (0, 0)

/-- Formats with infinities (R112). -/
def fmtHasInf : Fmt → Bool
  | .e5m2 | .bf16 | .fp16 | .fp32 => true
  | _ => false

/-- Formats with a NaN (R112). -/
def fmtHasNan (f : Fmt) : Bool := fmtHasInf f || f == .e4m3

/-- Formats whose subnormals the units flush (R120). -/
def fmtFlushes : Fmt → Bool
  | .bf16 | .fp16 | .fp32 => true
  | _ => false

/-- A decoded value. -/
inductive Val where
  | num (neg : Bool) (m : Nat) (e : Int)
  | inf (neg : Bool)
  | nan (neg : Bool)
  | void
deriving DecidableEq, Repr

/-- Zero of a sign. -/
def zeroVal (neg : Bool) : Val := .num neg 0 0

/-- The value of a code (R114 to R119). -/
def decodeVal (f : Fmt) (code : Nat) : Val :=
  match fmtFloat f with
  | some (eb, mb, bias) =>
    let s := bitAt code (eb + mb)
    let e := field code (eb + mb - 1) mb
    let m := code % 2 ^ mb
    let top := 2 ^ eb - 1
    if f == .e4m3 && e == 15 && m == 7 then .nan s
    else if fmtHasInf f && e == top then (if m = 0 then .inf s else .nan s)
    else if e = 0 then .num s m (1 - (bias : Int) - mb)
    else .num s (2 ^ mb + m) ((e : Int) - bias - mb)
  | none =>
    match f with
    | .t2 => if code % 4 = 2 then .void else if code % 4 = 1 then .num false 1 0
             else if code % 4 = 3 then .num true 1 0 else zeroVal false
    | .uint8 | .uint4 => .num false (code % 2 ^ fmtBits f) 0
    | _ => let v := signedOf code (fmtBits f); .num (v < 0) v.natAbs 0

/-- A value below the smallest normal of its format, and not zero. -/
def isSubnormal (f : Fmt) : Val → Bool
  | .num _ m e =>
    match fmtFloat f with
    | some (_, _, bias) => m != 0 && decide ((Nat.log2 m : Int) + e < 1 - (bias : Int))
    | none => false
  | _ => false

/-- The input rule of R120: a subnormal reads as zero of its sign. -/
def flushVal (f : Fmt) (v : Val) : Val :=
  match v with
  | .num s _ _ => if fmtFlushes f && isSubnormal f v then zeroVal s else v
  | _ => v

/-- The power of two of the grid of R129 around m × 2^e: `mb` mantissa bits, no finer than the subnormal spacing (DEDUCED, log 17). -/
def gridExp (f : Fmt) (m : Nat) (e : Int) : Int :=
  match fmtFloat f with
  | some (_, mb, bias) => max ((Nat.log2 m : Int) + e - mb) (1 - (bias : Int) - mb)
  | none => 0

/-- `lo` as a multiple of 2^q, and the remainder over a power of two. -/
def gridSplit (m : Nat) (e q : Int) : Nat × Nat × Nat :=
  if q ≤ e then (m <<< (e - q).toNat, 0, 1)
  else let sh := (q - e).toNat; (m >>> sh, m % 2 ^ sh, 2 ^ sh)

/-- The tie rule of R129: whether the grid value k × 2^q is the even one. -/
def tieEven (f : Fmt) (k : Nat) (q : Int) : Bool :=
  if f == .e3m0 then k == 0 || ((Nat.log2 k : Int) + q + 3) % 2 == 0 else k % 2 == 0

/-- R129: a magnitude rounded to a format's precision under a mode, with random word `u`: (k, q) for k × 2^q. -/
def roundMag (f : Fmt) (mode u m : Nat) (e : Int) : Nat × Int :=
  let q := gridExp f m e
  let (lo, rem, den) := gridSplit m e q
  if rem = 0 then (lo, q)
  else if mode = 0 then
    if 2 * rem < den then (lo, q) else if den < 2 * rem then (lo + 1, q)
    else if tieEven f lo q then (lo, q) else (lo + 1, q)
  else if mode = 1 then (if u < rem * 2 ^ 24 / den then (lo + 1, q) else (lo, q))
  else (lo, q)

/-- Whether m × 2^e is above k × 2^q. -/
def magGt (m : Nat) (e : Int) (k : Nat) (q : Int) : Bool :=
  let b := min e q
  decide (k * 2 ^ (q - b).toNat < m * 2 ^ (e - b).toNat)

/-- The largest finite magnitude of a floating format (R114 to R117, IEEE 754). -/
def maxFinite (f : Fmt) : Nat × Int :=
  match f with
  | .e4m3 => (14, 5)
  | .e5m2 => (7, 13)
  | .e2m1 => (3, 1)
  | .e3m0 => (1, 4)
  | .bf16 => (255, 120)
  | .fp16 => (2047, 5)
  | _ => (2 ^ 24 - 1, 104)

/-- The code of a finite grid value, with a sign. -/
def encodeNum (f : Fmt) (neg : Bool) (k : Nat) (q : Int) : Nat :=
  match fmtFloat f with
  | some (eb, mb, bias) =>
    let sign := ofBool neg <<< (eb + mb)
    if k = 0 then sign
    else
      let ex := (Nat.log2 k : Int) + q
      let emin : Int := 1 - (bias : Int)
      if ex < emin then sign + (gridSplit k q (emin - mb)).1
      else
        let mant := (gridSplit k q (ex - mb)).1
        sign + ((ex + bias).toNat <<< mb) + (mant - 2 ^ mb)
  | none =>
    let v : Int := (gridSplit k q 0).1
    toWord (fmtBits f) (if neg then -v else v)

/-- The NaN that a unit writes (R114, R115, R121); `neg` only matters for E4M3. -/
def encodeNan (f : Fmt) (neg : Bool) : Nat :=
  match f with
  | .e4m3 => if neg then 0xFF else 0x7F
  | .e5m2 => 0x7E
  | .bf16 => 0x7FC0
  | .fp16 => 0x7E00
  | .fp32 => 0x7FC00000
  | _ => 0

/-- The infinity of a format that has one. -/
def encodeInf (f : Fmt) (neg : Bool) : Nat :=
  match fmtFloat f with
  | some (eb, mb, _) => (ofBool neg <<< (eb + mb)) + ((2 ^ eb - 1) <<< mb)
  | none => 0

/-- Nearest-even rounding of an exact result into FP32, BF16 or FP16, with ∞ on overflow and R120's flush: the code, and
whether it overflowed. `flush` is false in the precise stage (R120). -/
def roundFloat (f : Fmt) (flush neg : Bool) (m : Nat) (e : Int) : Nat × Bool :=
  if m = 0 then (encodeNum f neg 0 0, false)
  else
    let (k, q) := roundMag f 0 0 m e
    let (km, qm) := maxFinite f
    if magGt k q km qm then (encodeInf f neg, true)
    else if flush && isSubnormal f (.num neg k q) then (encodeNum f neg 0 0, false)
    else (encodeNum f neg k q, false)

/-- An exact signed sum of two dyadic numbers. -/
def addExact (a : Int × Int) (b : Int × Int) : Int × Int :=
  let q := min a.2 b.2
  (a.1 * 2 ^ (a.2 - q).toNat + b.1 * 2 ^ (b.2 - q).toNat, q)

/-- A finite value as a signed dyadic number. -/
def signedVal : Val → Int × Int
  | .num s m e => (if s then -(m : Int) else m, e)
  | _ => (0, 0)

/-- Product of two values by the rules of IEEE 754; a void reads as zero (R118). -/
def mulVal (a b : Val) : Val :=
  let a := if a = .void then zeroVal false else a
  let b := if b = .void then zeroVal false else b
  match a, b with
  | .num s m e, .num t n d => .num (s != t) (m * n) (e + d)
  | .inf s, .num t n _ => if n = 0 then .nan false else .inf (s != t)
  | .num s m _, .inf t => if m = 0 then .nan false else .inf (s != t)
  | .inf s, .inf t => .inf (s != t)
  | _, _ => .nan false

/-- Sum of two values by the rules of IEEE 754 under round to nearest: an exact zero sum is -0 only of two -0. -/
def addVal (a b : Val) : Val :=
  match a, b with
  | .num s m e, .num t n d =>
    let (v, q) := addExact (signedVal (.num s m e)) (signedVal (.num t n d))
    if v = 0 then zeroVal (m = 0 && n = 0 && s && t) else .num (v < 0) v.natAbs q
  | .inf s, .inf t => if s = t then .inf s else .nan false
  | .inf s, .num _ _ _ => .inf s
  | .num _ _ _, .inf t => .inf t
  | _, _ => .nan false

/-- The code of an exact value in a format of 16 or 32 bits. -/
def writeVal (f : Fmt) (flush : Bool) : Val → Nat × Bool
  | .num s m e => roundFloat f flush s m e
  | .inf s => (encodeInf f s, false)
  | _ => (encodeNan f false, false)

/-- A value with its sign turned. -/
def negVal : Val → Val
  | .num s m e => .num (!s) m e
  | .inf s => .inf (!s)
  | v => v

/-- Whether finite or infinite value `a` is below `b`, with -0 below +0 (R127). -/
def valLt (a b : Val) : Bool :=
  let rank : Val → Int
    | .inf true => -1 | .inf false => 1 | _ => 0
  if rank a ≠ rank b then decide (rank a < rank b)
  else
    let (x, e) := signedVal a
    let (y, d) := signedVal b
    let q := min e d
    let x' := x * 2 ^ (e - q).toNat
    let y' := y * 2 ^ (d - q).toNat
    if x' ≠ y' then decide (x' < y')
    else match a, b with
      | .num s 0 _, .num t 0 _ => s && !t
      | _, _ => false

/-! ### The lane engine -/

/-- One lane of the LE (R127): `LE_OP` 1 to 7 on codes of format `f`. -/
def leLane (f : Fmt) (op a b c : Nat) : Nat :=
  let x := flushVal f (decodeVal f a)
  let y := flushVal f (decodeVal f b)
  let z := flushVal f (decodeVal f c)
  let isNan : Val → Bool := fun v => match v with | .nan _ => true | _ => false
  let r := match op with
    | 1 => addVal (mulVal x y) z
    | 2 => addVal x y
    | 3 => addVal x (negVal y)
    | 4 => mulVal x y
    | 5 => if isNan x || isNan y then .nan false else if valLt x y then y else x
    | 6 => if isNan x || isNan y then .nan false else if valLt y x then y else x
    | _ => x
  (writeVal f true r).1

/-! ### The dot product -/

/-- The elements of a packed operand (R113). -/
def unpackElems (f : Fmt) (n w : Nat) : List Nat :=
  (upto n).map fun i => field w (fmtBits f * i + fmtBits f - 1) (fmtBits f * i)

/-- Elements packed from the least significant bits up (R113). -/
def packElems (f : Fmt) : List Nat → Nat
  | [] => 0
  | c :: cs => c % 2 ^ fmtBits f + 2 ^ fmtBits f * packElems f cs

/-- A `PAIRING` of R108: length, operand formats by `FMT_A` and `FMT_B`, widths in bytes; `none` where reserved. -/
def pairingInfo (pairing fmtA fmtB : Nat) : Option (Nat × Fmt × Fmt × Nat × Nat) :=
  let fp8 := fun b => if b = 0 then Fmt.e4m3 else .e5m2
  let fp4 := fun b => if b = 0 then Fmt.e2m1 else .e3m0
  let i8 := fun b => if b = 0 then Fmt.int8 else .uint8
  let i4 := fun b => if b = 0 then Fmt.int4 else .uint4
  match pairing with
  | 0 => some (32, fp8 fmtA, fp8 fmtB, 32, 32)
  | 1 => some (64, fp4 fmtA, fp4 fmtB, 32, 32)
  | 2 => some (32, fp4 fmtA, fp8 fmtB, 16, 32)
  | 3 => some (32, .t2, fp8 fmtB, 16, 32)
  | 4 => some (64, .t2, fp4 fmtB, 16, 32)
  | 5 => some (32, i8 fmtA, i8 fmtB, 32, 32)
  | 6 => some (64, i4 fmtA, i4 fmtB, 32, 32)
  | 7 => some (32, i4 fmtA, i8 fmtB, 16, 32)
  | _ => none

/-- What one DPE firing does: the new accumulator and the counters it increments. -/
structure DotResult where
  acc : Nat
  /-- Counter 37 (R123). -/
  overFloat : Bool := false
  /-- Counter 36 (R124). -/
  overInt : Bool := false
  /-- Counter 38 (R125). -/
  voids : Bool := false
deriving DecidableEq, Repr

/-- Whether a value is zero. -/
def valIsZero : Val → Bool
  | .num _ 0 _ => true
  | _ => false

/-- The floating-point case of R122 and R123: the products and the accumulator's value. -/
def dotFloat (prods : List Val) (elemNan : Bool) (acc : Val) : Nat × Bool :=
  let bad := elemNan || prods.any (fun v => match v with | .nan _ => true | _ => false)
    || (match acc with | .nan _ => true | _ => false)
  let infs := (acc :: prods).filterMap fun v => match v with | .inf s => some s | _ => none
  if bad then (encodeNan .fp32 false, false)
  else if infs.contains true && infs.contains false then (encodeNan .fp32 false, false)
  else match infs with
    | s :: _ => (encodeInf .fp32 s, false)
    | [] =>
      let (v, q) := prods.foldl (fun t p => addExact t (signedVal p)) (signedVal acc)
      if v = 0 then
        let allNeg := (acc :: prods).all fun p => match p with | .num true 0 _ => true | _ => false
        (encodeNum .fp32 allNeg 0 0, false)
      else roundFloat .fp32 true (v < 0) v.natAbs q

/-- One DPE firing's arithmetic (R122 to R126): operands `a` and `b` as packed numbers, the accumulator's 32 bits. -/
def dot (pairing fmtA fmtB a b acc : Nat) (intSat : Bool) : DotResult :=
  match pairingInfo pairing fmtA fmtB with
  | none => ⟨acc, false, false, false⟩
  | some (n, fa, fb, _, _) =>
    let xs := (unpackElems fa n a).map (decodeVal fa)
    let ys := (unpackElems fb n b).map (decodeVal fb)
    let prods := (xs.zip ys).map fun p => mulVal p.1 p.2
    let voids := xs.contains .void
    if (fmtFloat fb).isNone then
      let s := prods.foldl (fun t p => t + (signedVal p).1) (signedOf acc 32)
      if s < -2147483648 ∨ 2147483647 < s then
        ⟨toWord 32 (if intSat then clampInt (-2147483648) 2147483647 s else s), false, true, voids⟩
      else ⟨toWord 32 s, false, false, voids⟩
    else
      let isNan : Val → Bool := fun v => match v with | .nan _ => true | _ => false
      let (r, tooBig) := dotFloat prods (xs.any isNan || ys.any isNan) (flushVal .fp32 (decodeVal .fp32 acc))
      ⟨r, tooBig, false, voids⟩

/-! ### The conversion function -/

/-- The census kinds of R128, in the order of the mask's bits (R130). -/
inductive Census where
  | saturation | flush | void | nan
deriving DecidableEq, Repr

/-- A converted element: its code, its census kind, and the values that the residual needs. -/
structure Converted where
  code : Nat
  census : Option Census
  orig : Val
  result : Val
deriving DecidableEq, Repr

/-- Step 6's result for an overflow of sign `neg` (R128). -/
def overflowCode (g : Fmt) (sat : Bool) (neg : Bool) : Nat :=
  match fmtFloat g with
  | some _ =>
    if sat && fmtHasInf g then encodeInf g neg
    else if sat && g == .e4m3 then encodeNan g neg
    else let (k, q) := maxFinite g; encodeNum g neg k q
  | none => let (lo, hi) := fmtRange g; toWord (fmtBits g) (if neg then lo else hi)

/-- The conversion function of R128, from code `x` of format `f` to format `g`, with random word `u`. -/
def convertElem (f g : Fmt) (mode : Nat) (sat : Bool) (u x : Nat) : Converted :=
  let orig := decodeVal f x
  let isVoid := orig == .void
  let flushed := fmtFlushes f && isSubnormal f orig
  let start : Option Census := if isVoid then some .void else if flushed then some .flush else none
  let v := if isVoid then zeroVal false else flushVal f orig
  let done := fun code (c : Option Census) => (⟨code, c, orig, decodeVal g code⟩ : Converted)
  match v with
  | .nan s =>
    if fmtHasNan g then done (encodeNan g (s && (f == .e4m3 || f == .e5m2))) start
    else done (encodeNum g false 0 0) (some .nan)
  | .inf s =>
    if fmtHasInf g && sat then done (encodeInf g s) start
    else done (overflowCode g sat s) (some .saturation)
  | .num s m e =>
    if m = 0 then
      done (encodeNum g (s && (fmtFloat g).isSome) 0 0) start
    else
      let (k, q) := roundMag g mode u m e
      let tooBig := match fmtFloat g with
        | some _ => let (km, qm) := maxFinite g; magGt k q km qm
        | none =>
          let (lo, hi) := fmtRange g
          let w : Int := if s then -((gridSplit k q 0).1 : Int) else (gridSplit k q 0).1
          decide (w < lo ∨ hi < w)
      if tooBig then done (overflowCode g sat s) (some .saturation)
      else if fmtFlushes g && isSubnormal g (.num s k q) then done (encodeNum g s 0 0) (some .flush)
      else if k = 0 then done (encodeNum g (s && (fmtFloat g).isSome) 0 0) (some .flush)
      else done (encodeNum g s k q) start
  | .void => done 0 start

/-- The 24-bit random word of element `n` (R133). -/
def randomWord (sigma n : Nat) : Nat :=
  let m := 2 ^ 64
  let z := (sigma + (n + 1) * 0x9E3779B97F4A7C15) % m
  let z := ((z ^^^ (z >>> 30)) * 0xBF58476D1CE4E5B9) % m
  let z := ((z ^^^ (z >>> 27)) * 0x94D049BB133111EB) % m
  let z := z ^^^ (z >>> 31)
  z >>> 40

/-- The generator's seed of R133. -/
def streamSigma (seed k : Nat) (mix : Bool) : Nat := (seed + (if mix then k * 2 ^ 32 else 0)) % 2 ^ 64

/-- The residual of R135 in E5M2 (`bf` false) or BF16. -/
def residual (bf : Bool) (orig y : Val) : Nat :=
  let g : Fmt := if bf then .bf16 else .e5m2
  match orig, y with
  | .void, _ => 0
  | .nan _, _ => encodeNan g false
  | _, .nan _ => encodeNan g false
  | .inf s, _ => encodeInf g s
  | .num _ _ _, .inf s => encodeInf g (!s)
  | .num s m e, y =>
    let yv := match y with | .void => zeroVal false | v => v
    match addVal (.num s m e) (negVal yv) with
    | .num t k q =>
      if k = 0 then encodeNum g t 0 0
      else
        let (a, b) := roundMag g 0 0 k q
        let (km, qm) := maxFinite g
        if magGt a b km qm then encodeNum g t km qm
        else if bf && isSubnormal g (.num t a b) then encodeNum g t 0 0
        else encodeNum g t a b
    | _ => 0

end Sys2Proof.Machine
end

