-- ==== Sys2Proof/Machine/State.lean ====
section
/-! DEFINITION. The state of the module: every piece of state the manual names (INVENTORY.md, "State"), the queue of waiting
commands, the two ways a step can stop, and the state right after power-on. -/
namespace Sys2Proof.Machine

/-! ### Tokens, cores and the slot fabric (spec/04, 07) -/

/-- A token: 16 B of payload and the tag of R75. -/
structure Token where
  payload : BitVec 128 := 0
  fold : BitVec 3 := 0
  ctrl : Bool := false
  endBit : Bool := false
  poison : Bool := false
  spare : BitVec 2 := 0
deriving DecidableEq, Repr

/-- A token in an operand queue, with the cycle in which it was written, and its place among the arrivals of that cycle: 0 slot
fabric, 1 DPE, 2 LE, 3 CE (R79). -/
structure QueueEntry where
  tok : Token
  written : Nat
  rank : Nat := 0
deriving DecidableEq, Repr

/-- Where an engine's token goes (R102): a queue, an output port over a route of a slot, a core-store entry. -/
inductive Target where
  | queue (q : Nat)
  | port (p slot route : Nat)
  | store (entry : Nat)
deriving DecidableEq, Repr

/-- A token sent by an engine that has not landed yet, and the cycle in which it lands (R90). -/
structure Landing where
  due : Nat
  target : Target
  tok : Token
  /-- The cycle of the firing that sends it (R89). -/
  fired : Nat
deriving DecidableEq, Repr

/-- A token in a launch buffer, the slot and route it takes, and the cycle in which it entered (R167). -/
structure LaunchEntry where
  tok : Token
  slot : Nat
  route : Nat
  entered : Nat
deriving DecidableEq, Repr

/-- A 16 B entry of the core store (R99) with its poison. -/
structure StoreEntry where
  bits : BitVec 128 := 0
  poison : Bool := false
deriving DecidableEq, Repr

/-- An accumulator (R100) or drain-bank entry (R144) with its poison bit. -/
structure AccWord where
  bits : BitVec 32 := 0
  poison : Bool := false
deriving DecidableEq, Repr

/-- A slack path (R180): write latch, read latch, the ring's oldest row and row count, and the first cycle in which a token may
move into the queue (step 4); the numbers of the hub's bursts with a row write and a row read of the path that are under way. -/
structure Slack where
  write : List Token := []
  read : List Token := []
  head : Nat := 0
  used : Nat := 0
  next : Nat := 0
  writing : Option Nat := none
  reading : Option Nat := none
deriving DecidableEq, Repr

/-- An origin's credit counter (R171): its 8 bits, and how many credits arrived in which cycle (one more than it), since these are
used from the next. -/
structure CreditCount where
  count : Nat := 0
  last : Nat := 0
  added : Nat := 0
deriving DecidableEq, Repr

/-- Pending credits of a share (R171): how many, and the first cycle in which the oldest may go back. -/
structure PendingCredit where
  count : Nat := 0
  ready : Nat := 0
deriving DecidableEq, Repr

/-- A stall or full counter of R517 with its hidden residue (R518). -/
structure StallCount where
  count : Nat := 0
  residue : Nat := 0
  /-- One more than the cycle last counted: a core counts a cycle once under each reason. -/
  seen : Nat := 0
deriving DecidableEq, Repr

/-- An engine's last firing: one more than its cycle, and the operands it held: mark key and queues (R87). -/
structure Turn where
  cycle : Nat := 0
  held : List (Nat × List Nat) := []
deriving DecidableEq, Repr

/-- One core. Sparse maps hold only what differs from the default after a clear (R191). -/
structure CoreState where
  /-- The pattern store's words, by slot (R106); VALID = 0 where absent. -/
  slots : SMap (BitVec 512) := []
  /-- Rotation pointer by slot (R83); 7 where absent. -/
  rot : SMap Nat := []
  /-- Data tokens sent under the present control token, by slot (R96). -/
  span : SMap Nat := []
  /-- Slots whose DPE carries an END (R76). -/
  carriedEnd : List Nat := []
  /-- Exhausted slots (R93). -/
  exhausted : List Nat := []
  /-- Queues, oldest token first (R78). -/
  queues : SMap (List QueueEntry) := []
  /-- Closed queue-fold pairs (key 8 × queue + fold) with the kind of R177: 1 exhaustion, 2 purge or reset. -/
  closed : SMap Nat := []
  /-- Marked operands of R87: key 8 × slot + operand (0, 1 the DPE's; 2, 3, 4 the LE's). -/
  marks : List Nat := []
  store : SMap StoreEntry := []
  /-- `none`: an absent entry is zero; `some n`: it is undefined, free value `n` (R104). -/
  storeFree : Option Nat := none
  acc : SMap AccWord := []
  /-- Sums not yet complete: accumulator, the cycle the sum is complete, the value before it (R126). -/
  sums : List (Nat × Nat × AccWord) := []
  /-- Core-store read ports used in a cycle: the cycle and how many (R88). -/
  portsUsed : Nat × Nat := (0, 0)
  /-- The drain bank of R144. -/
  bank : SMap AccWord := []
  /-- C0 to C3 (R91). -/
  ctr : SMap W32 := []
  /-- A cycle, and the counters as the engines that fire in it read them: before any of its ticks. -/
  ctrHeld : Option (Nat × SMap W32) := none
  /-- One more than the cycle of the firing that last exhausted a slot (R93). -/
  exhaustedAt : Nat := 0
  /-- The last firings of the DPE (0) and the LE (1), for wraps later in the same cycle (R87). -/
  turns : SMap Turn := []
  /-- Core-store entries written in a cycle: entry, cycle, and the value before, which reads of that cycle see (R89). -/
  oldStore : List (Nat × Nat × StoreEntry) := []
  /-- The cycle and destination of the LE's last 32 B result (R103). -/
  leWide : Option (Nat × Nat) := none
  landing : List Landing := []
  /-- Due DPE emission tokens (R101). -/
  emissions : List Landing := []
  /-- First cycle in which each engine may fire again: 0 DPE, 1 LE, 2 CE (R74, R101, R103). -/
  nextFire : SMap Nat := []
  launch : SMap (List LaunchEntry) := []
  /-- First cycle in which each port may launch again (R167). -/
  nextLaunch : SMap Nat := []
  /-- Route last taken by a port in a slot, key 4 × slot + port (R167). -/
  portTurn : SMap Nat := []
  /-- Origin credit counters, key 4 × slot + route (R171). -/
  credit : SMap CreditCount := []
  /-- Credits held in the switchbox, key 8 × (4 × slot + route) + branch; branches 0 to 3 are links, 4 is local delivery, 5 a
  Lacing tap (R172, R202, R301). -/
  branch : SMap Nat := []
  /-- Pending credits of a share, key 8 × queue + fold (R171). -/
  pendCredit : SMap PendingCredit := []
  slack : SMap Slack := []
  /-- Watches that gate the core (R342). -/
  gates : Nat := 0
  /-- R517's counters: 0 OPERAND, 1 ROOM, 2 STORE_PORT, 3 STORE_HAZARD, 8 + q the full counter of queue q. -/
  stalls : SMap StallCount := []
  /-- One more than the number of the beat in which an engine or gang DPE last fired (R403). -/
  firedBeat : Nat := 0
  /-- The beats in which parity errors were seen in the last 65,536 (R484). -/
  parityErrors : List Nat := []
deriving DecidableEq, Repr

/-- A token on a link: the core (1,024 × cluster + core), or seam line (327,680 + 80 × I/O die + line), to which it is
presented, the link on which it arrives, when, and its age (R166, R169, R440). -/
structure Flight where
  dest : Nat
  dir : Dir
  due : Nat
  launched : Nat
  tok : Token
deriving DecidableEq, Repr

/-- A credit on a credit lane (R170): the core or seam line (the numbers of `Flight.dest`) to which it is presented and its data
link there, the fold, the phase in which that end drives the link, the cycle of presentation. -/
structure LaneCredit where
  dest : Nat
  dir : Dir
  fold : Nat
  phase : Nat
  due : Nat
deriving DecidableEq, Repr

/-! ### Gangs (spec/06) -/

/-- A 32 B word with its poison. -/
structure Word256 where
  bits : W256 := 0
  poison : Bool := false
deriving DecidableEq, Repr

/-- A K-step in the idle bank of the edge stores (R150): its block, its step, its A and B words, and the number of the feed's burst
that reads them. -/
structure KStep where
  block : Nat
  step : Nat
  a : List Word256
  b : List Word256
  burst : Nat
deriving DecidableEq, Repr

/-- The progress of one fold's gang. -/
structure GangFold where
  /-- The open or next block, and the next K-step to present. -/
  block : Nat := 0
  step : Nat := 0
  /-- A block is open (R160). -/
  isOpen : Bool := false
  /-- The next block and K-step that the feed reads (R150). -/
  feedBlock : Nat := 0
  feedStep : Nat := 0
  /-- Gate tokens already consumed: (block, K-step) (R154). -/
  gated : List (Nat × Nat) := []
  /-- Blocks for which a poisoned gate token was consumed (R154). -/
  gatePoison : List Nat := []
  drained : Nat := 0
  doneSent : Nat := 0
deriving DecidableEq, Repr

/-- A row of 512 B with a poison bit per 32 B word (R212, R215). -/
structure Row where
  data : BitVec 4096 := 0
  poison : BitVec 16 := 0
deriving DecidableEq, Repr

/-- A drain that runs (R156, R157): its fold and block, the cycle in which it began, and for a handle the rows to be written, the
number of its last burst, and how many groups after that burst's have no unmasked row. -/
structure DrainRun where
  fold : Nat
  block : Nat
  start : Nat
  rows : List (Nat × Row) := []
  burst : Nat := 0
  empty : Nat := 0
deriving DecidableEq, Repr

/-- The gang sequencer and the lattice resources of a cluster. -/
structure GangUnit where
  folds : SMap GangFold := []
  /-- Fold of the gang last active (R163). -/
  lastFold : Nat := 0
  /-- The edge stores' idle bank; a second K-step from 4 cycles before the round that empties it (R150). -/
  idle : List KStep := []
  /-- A finished block whose drain has not begun: fold, block, first cycle in which it may (R156). -/
  drain : Option (Nat × Nat × Nat) := none
  run : Option DrainRun := none
  /-- Blocks drained whose done token is not sent: fold, block, cycle in which it is due (R159). -/
  doneDue : List (Nat × Nat × Nat) := []
  /-- `F` of the lattice's previous drain, once it has ended (R157, R158). -/
  drainEnd : Nat := 0
  /-- PHASE in the round that ends before `nextRound`, and GATE_WAIT (R163). -/
  phase : Nat := 0
  gateWait : Bool := false
  kstep : Nat := 0
  /-- The block last presented (R163). -/
  lastBlock : Nat := 0
  /-- First cycle of the next round to be presented. -/
  nextRound : Nat := 0
deriving DecidableEq, Repr

/-! ### Row memory, arbiter, handles (spec/09) -/

/-- A handle entry (R227): its three words. -/
structure Handle where
  base : W32 := 0
  note : W32 := 0
  ring : W32 := 0
deriving DecidableEq, Repr

/-- A ring's state (R237). -/
structure Ring where
  head : Nat := 0
  tail : Nat := 0
  used : Nat := 0
  skipAt : Nat := 0
  skipValid : Bool := false
  /-- Rows placed and not landed: first row, rows, sender's cluster, rows landed (R236, R233). -/
  placed : List (Nat × Nat × Nat × Nat) := []
deriving DecidableEq, Repr

/-- The notifier of a handle (R235). -/
structure Notifier where
  credit : Nat := 0
  pending : List (Nat × Bool) := []
  sent : Nat := 0
  /-- A poisoned row was counted since the last notification. -/
  poison : Bool := false
deriving DecidableEq, Repr

/-- A burst of rows that a requester asks for (R216, R224). -/
structure RowRequest where
  /-- First absolute row and number of rows of each run. -/
  spans : List (Nat × Nat)
  write : Bool := false
  /-- The Stitch combiner's read-for-write (R224). -/
  readForWrite : Bool := false
  /-- Presented to this port alone: the release clear (R221). -/
  only : Option Nat := none
  /-- First cycle in which it can issue. -/
  ready : Nat
  /-- How long after the presentation, and after the last row, of the requester's burst before it. -/
  step : Nat := 0
  gap : Nat := 0
deriving DecidableEq, Repr

/-- A request held or presented at row memory's arbiter (R216, R224), and since when. -/
structure ArbRequest where
  req : RowRequest
  since : Nat
  held : Bool
  /-- Ranges of a lower serial entered the tables before it (R225). -/
  serial : Nat
deriving DecidableEq, Repr

/-- A write range of the scoreboard (R224): requester, rows, the cycle in which it leaves (none: not granted). -/
structure WriteRange where
  requester : Nat
  spans : List (Nat × Nat)
  leaves : Option Nat
  serial : Nat
deriving DecidableEq, Repr

/-- An arbitrated port (R217). -/
structure ArbPort where
  /-- The latest winner: it owns the port from the cycle after `start`, its decision's, to `ends`, its last unit's. -/
  owner : Option Nat := none
  start : Nat := 0
  ends : Nat := 0
  /-- The owner whose last unit moves in cycle `start`. -/
  before : Option Nat := none
  /-- The owner will not mark its last unit, and is cut at its 64th (R220). -/
  cut : Bool := false
  /-- Units up to this cycle are in the rows counter (R222). -/
  counted : Nat := 0
  /-- The pointers of R217, and the grants won in window number `window` (R219). -/
  high : Nat := 15
  normal : Nat := 15
  window : Nat := 0
  wins : SMap Nat := []
deriving DecidableEq, Repr

/-- The bursts of a requester that have been granted: how many, and when the latest was presented and moves its last row. -/
structure PastBurst where
  count : Nat := 0
  since : Nat := 0
  ends : Nat := 0
deriving DecidableEq, Repr

/-- Row memory's arbiter and scoreboard. Keys are requester numbers; 15 is requester 14 on port 1 in a release clear (R221). -/
structure Arbiter where
  ports : SMap ArbPort := []
  /-- Requests presented, or held by the scoreboard: one for a requester (R216). -/
  requests : SMap ArbRequest := []
  /-- Bursts not yet issued, in order. -/
  queue : SMap (List RowRequest) := []
  past : SMap PastBurst := []
  tableW : List WriteRange := []
  tableN : List WriteRange := []
  serial : Nat := 0
  /-- First cycle whose decisions have not been made. -/
  now : Nat := 0
deriving DecidableEq, Repr

/-- A reservation that waits on a ring (R237). -/
structure RingWaiter where
  handle : Nat
  packet : Packet
  since : Nat
deriving DecidableEq, Repr

/-- A descriptor in an engine's pending queue: its bits, its record in the work list (number, byte offset), the signal it
gives (R286), and, for a firmware post, the requester (R230). -/
structure PendingDesc where
  bits : BitVec 2048
  record : Nat := 0
  offset : Nat := 0
  signal : Option Nat := none
  poster : Option Nat := none
deriving DecidableEq, Repr

/-- The Awl (R242, R244). -/
structure Awl where
  queue : List PendingDesc := []
  oobSeen : Bool := false
  done : Nat := 0
deriving DecidableEq, Repr

/-! ### Finishing engines (spec/10) -/

/-- States of a tile (R265). -/
inductive TileState where
  | free | filling | ready
deriving DecidableEq, Repr

/-- A tile buffer (R246); absent elements are undefined, free value `base` (R265). -/
structure Tile where
  state : TileState := .free
  /-- The cycle since which it is in this state (R265). -/
  since : Nat := 0
  data : SMap AccWord := []
  base : Nat := 0
deriving DecidableEq, Repr

/-- The census counts of R137. -/
structure CensusCounts where
  sat : Nat := 0
  flush : Nat := 0
  void : Nat := 0
  nan : Nat := 0
deriving DecidableEq, Repr

/-- An element that leaves an FE's chain: its `n` (R247), its number D-side (R252), its code or FP32 bits, and the number of
its vector. -/
structure FeOut where
  n : Nat
  place : Nat
  code : Nat
  poison : Bool
  masked : Bool
  vector : Nat
deriving DecidableEq, Repr

/-- An FE descriptor that has made its reads: its elements on their way to the destination. -/
structure FeRun where
  desc : PendingDesc
  outs : List FeOut
deriving DecidableEq, Repr

/-- A finishing engine (R249): queue, descriptors between their reads and their last write, tiles, census. -/
structure FinishingEngine where
  queue : List PendingDesc := []
  /-- The cycle since which the descriptor at the head of the queue is there (R249). -/
  headAt : Nat := 0
  running : List FeRun := []
  tiles : SMap Tile := []
  census : CensusCounts := {}
  vectors : Nat := 0
deriving DecidableEq, Repr

/-! ### Stream unit, Lacing, lists (spec/11, 12, 13) -/

/-- A request of a stream (R291): number, device address of its first byte, bytes, and a STORE's data with its poison by
32 B word of the address. -/
structure Piece where
  num : Nat
  addr : Nat
  len : Nat
  data : List Byte := []
  poison : List Nat := []
deriving DecidableEq, Repr

/-- A stream slot (R288, R295). -/
structure StreamSlot where
  desc : Option PendingDesc := none
  /-- The descriptor has been started (past WAIT_EN); its transfers are made. -/
  started : Bool := false
  op : Nat := 0
  rows : Nat := 0
  /-- Requests not yet issued, in element order, and the answers by request number: a read's words, none for a write. -/
  todo : List Piece := []
  landed : SMap (Nat × List Word256) := []
  /-- Requests of the descriptor. -/
  pieces : Nat := 0
  /-- Companion rows written, and tokens of a LOAD_Q made (R136, R292). -/
  compRows : Nat := 0
  made : Nat := 0
  /-- The census threshold was reached (R138). -/
  evented : Bool := false
  /-- The transfers are finished: STREAM_DONE may follow. -/
  finished : Bool := false
  /-- A POST's rows, held for its placement (R293). -/
  message : List Row := []
  /-- Tokens of a LOAD_Q not yet delivered (R292). -/
  tokens : List Token := []
  /-- The share that a LOAD_Q feeds: core, queue, fold. -/
  share : Option (Nat × Nat × Nat) := none
  delivered : Nat := 0
  credit : Nat := 0
  /-- A POST waits for its ring: the packet it sends when placed (R293). -/
  post : Option Packet := none
  /-- A request was answered with an error or the stream aborted. -/
  failed : Bool := false
  census : CensusCounts := {}
deriving DecidableEq, Repr

/-- The stream unit. -/
structure StreamUnit where
  queue : List PendingDesc := []
  slots : SMap StreamSlot := []
  /-- Slot last served in rotation, and the last transaction number (R288). -/
  turn : Nat := 15
  tag : Nat := 0
  /-- The cycle since which 32 stream requests are in flight (R295). -/
  fullSince : Option Nat := none
deriving DecidableEq, Repr

/-- An active Lacing descriptor (R301, R302). -/
structure LacingRun where
  desc : PendingDesc
  /-- Next row of the laced stream. -/
  row : Nat := 0
  /-- SOURCE: credits of a line. -/
  credit : SMap Nat := []
  /-- TAP: tokens held by line, oldest first. -/
  tokens : SMap (List Token) := []
  /-- Tokens that a line has taken (TAP) or launched (SOURCE). -/
  arrived : SMap Nat := []
  /-- SOURCE: first cycle in which the next row may launch, and the row once it has been read. -/
  nextLaunch : Nat := 0
  latch : Option Row := none
  /-- Terminal TAP: credits owed to a line (R301). -/
  owed : SMap Nat := []
deriving DecidableEq, Repr

/-- The Lacing unit: queue of 4, up to 2 active. -/
structure LacingUnit where
  queue : List PendingDesc := []
  active : SMap LacingRun := []
deriving DecidableEq, Repr

/-- A list in device memory that the sequencer runs (R286, R327, R345): address, length, next byte, next record number. -/
structure ListRun where
  addr : Nat := 0
  len : Nat := 0
  pos : Nat := 0
  record : Nat := 0
  ended : Bool := true
deriving DecidableEq, Repr

/-- A waiter of the barrier table (R349): VID, generation bits [15:0], target of kind 0 or 1, gate, and its armed deadline. -/
structure BarrierWaiter where
  vid : Nat
  gen : Nat
  kind : Nat
  target : Nat
  gate : Bool
  /-- Deadline beat (R350). -/
  deadline : Option (BitVec 48) := none
  missRelease : Bool := false
deriving DecidableEq, Repr

/-- A wake token held until its share has room (R341), and the first cycle in which it may be written (R349). -/
structure HeldWake where
  core : Nat
  queue : Nat
  tok : Token
  gates : Bool
  ready : Nat := 0
deriving DecidableEq, Repr

/-- A cinch operation that the sequencer has sent and that is unanswered (R346): tag, descriptor and its byte offset, issue beat. -/
structure CinchOp where
  tag : Nat
  entry : BitVec 256
  offset : Nat
  sent : BitVec 48
deriving DecidableEq, Repr

/-- An armed entry of the fold schedule (R196). -/
structure ArmedSwitch where
  beat : BitVec 48
  fold : Nat
  period : Nat
  left : Nat
deriving DecidableEq, Repr

/-- An outstanding memory request of an engine (R283, R285): tag, engine and slot, device address, when issued, a write. -/
structure Outstanding where
  engine : Nat
  slot : Nat
  tag : Nat
  addr : Nat
  words : Nat
  issued : Nat
  isWrite : Bool
  host : Bool
  /-- The piece of the stream that it moves. -/
  piece : Nat := 0
deriving DecidableEq, Repr

/-- The states of a core-array domain (R413). -/
inductive DomainState where
  | off | idle | run
deriving DecidableEq, Repr

/-- A stitched packet that the Stitch unit holds, sent and unacknowledged (R328). -/
structure StitchOut where
  tag : Nat
  packet : Packet
  /-- Segment, and the cycle in which it was sent. -/
  record : Nat
  sent : Nat
deriving DecidableEq, Repr

/-- A pace that moves by `step` a beat from `start` in beat `since` toward `goal` (R410, R424). -/
structure Glide where
  start : Nat := 64
  since : BitVec 48 := 0
  step : Nat := 0
  goal : Nat := 64
deriving DecidableEq, Repr

/-- One cluster. -/
structure ClusterState where
  /-- The limiter's pace, which applies while the cluster is RUNNING (R424). -/
  limiter : Glide := {}
  cores : SMap CoreState := []
  activeFold : Nat := 0
  /-- First cycle after the present bubble round (R195). -/
  bubbleEnd : Nat := 0
  initFold : Nat := 0
  schedule : List (BitVec 128) := []
  gangDesc : SMap (BitVec 512) := []
  armed : List ArmedSwitch := []
  /-- The block written by the configuration load and not yet committed (R207): its rows. -/
  next : SMap Row := []
  nextStore : Bool := false
  nextInitFold : Nat := 0
  nextQuiet : Nat := 0
  /-- LOAD_PHASE of R192. -/
  loadPhase : Nat := 0
  gang : GangUnit := {}
  rows : SMap Row := []
  /-- `none`: an unlisted row is zero (R191); `some n`: it is undefined, free value `n` (R214). -/
  rowsFree : Option Nat := none
  handles : SMap Handle := []
  arrivals : SMap W32 := []
  notifiers : SMap Notifier := []
  rings : SMap Ring := []
  ringWaiters : List RingWaiter := []
  /-- Reservations answered with a retry: source, its module, tag, and the cycle of the first presentation (R237, R239). -/
  ringSeen : List (BitVec 16 × BitVec 14 × BitVec 10 × Nat) := []
  arb : Arbiter := {}
  fillCopy : List PendingDesc := []
  awl : Awl := {}
  fes : SMap FinishingEngine := []
  stream : StreamUnit := {}
  lacing : LacingUnit := {}
  work : ListRun := {}
  stitchList : ListRun := {}
  cinchList : ListRun := {}
  /-- Records of the work list that are done, and SIG_EN signals already given. -/
  doneRecords : List Nat := []
  /-- The Stitch descriptor in progress; `stitchList.record` counts its segments sent. -/
  stitchDesc : Option (BitVec 256) := none
  /-- The source row that the Stitch unit holds, with its number in the descriptor (R328). -/
  stitchRow : Option (Nat × Row) := none
  stitchOut : List StitchOut := []
  /-- Held retries of ring reservations and cinch entries: packet and the beat boundary at which it is presented again. -/
  retries : List (Packet × Nat) := []
  cinchOps : List CinchOp := []
  cinchTag : Nat := 0
  barriers : List BarrierWaiter := []
  /-- VIDs on which the cluster registered a watch in the task (R347). -/
  watchedVids : List Nat := []
  heldWakes : List HeldWake := []
  outstanding : List Outstanding := []
  /-- Frozen by the deadlock watch (R185), and the idle beats it counted. -/
  frozen : Bool := false
  idleBeats : Nat := 0
  /-- The deadlock watch's report: full and empty shares, as 8 × core + queue (R186). -/
  fullShares : List Nat := []
  emptyShares : List Nat := []
  /-- Stopped by step 2 of R297. -/
  stopped : Bool := false
  /-- Closed by R204: nothing fires until the commit. -/
  isClosed : Bool := false
  /-- One more than the number of the beat of the last firing in the cluster (R203), of the last activity of R184, and of the
  last event that broke R513. -/
  firedBeat : Nat := 0
  activeBeat : Nat := 0
  brokenBeat : Nat := 0
  /-- DPE and gang firings by round number of the counter, the last two rounds that had any (R409). -/
  dpeRounds : List (Nat × Nat) := []
  power : DomainState := .idle
  /-- One more than the number of the beat in which the cluster last left RUN (R414, R429). -/
  ranBeat : Nat := 0
  /-- The state was raised by a DOMAIN_RAISE entry (R414). -/
  raised : Bool := false
  /-- Beat at which a raise from OFF completes (R415). -/
  raiseDue : Option (BitVec 48) := none
  /-- Physical row skipped, by logical column; 32 where absent (R18, R487). -/
  skipRow : SMap Nat := []
  /-- Core retirements recorded: column and physical row (R486). -/
  coreRetired : List (Nat × Nat) := []
  retired : Bool := false
  selfTest : Bool := false
  /-- Late tokens counted in the task (R177). -/
  lateTokens : Nat := 0
  /-- Tokens discarded at Ld (R208). -/
  purged : Nat := 0
  /-- Tokens discarded on the way to a stopped circuit and other counts of the task are in the page counters. -/
  notedHandles : List Nat := []
deriving DecidableEq, Repr

/-! ### Pages and the interrupt controller (spec/02) -/

/-- A requester's post window (R61, R229): words 0 to 2 and the result of its last post. -/
structure PostWindow where
  w0 : W32 := 0
  w1 : W32 := 0
  w2 : W32 := 0
  result : Nat := 0
deriving DecidableEq, Repr

/-- A register page (R27). `level` holds the condition events other than event 0; `regs` the block-specific words that
differ from their reset value. -/
structure Page where
  control : W32 := 0
  enable : W32 := 0
  latch : W32 := 0
  level : W32 := 0
  lock : BitVec 16 := 0
  err : W32 := 0
  /-- One more than the last cycle in which pulses or forces drove events, and the mask of these: a clear in that very cycle
  leaves them set (R9, R41). -/
  driven : Nat × W32 := (0, 0)
  /-- One more than the cycle of the last error, the record before that cycle, and the errors of the cycle: class, code, detail
  (R37). -/
  errCycle : Nat := 0
  errBase : W32 := 0
  errs : List (Nat × Nat × Nat) := []
  inReset : Bool := false
  counters : SMap W64 := []
  snapshots : SMap W32 := []
  regs : SMap W32 := []
  windows : SMap PostWindow := []
  /-- One more than the cycle in which a register's w1c bit was last set, by offset: CORE_EXC, FAB_EXC, STALE (R9, R105, R179). -/
  recorded : SMap Nat := []
  /-- Late executions of the page's calendar (R66). -/
  late : Nat := 0
  /-- Fractions of the counters that advance by whole mJ, in µJ (R405). -/
  residues : SMap Nat := []
  /-- The BAR0 mirror of a management-plane page: STATUS, EVENT_LEVEL, EVENT_LATCH, ERR_CAUSE and the summary (R22, R47). -/
  mirror : List W32 := [0, 0, 0, 0, 0]
deriving DecidableEq, Repr

/-- An interrupt source (R46 to R51). -/
structure Source where
  rot : Nat := 18
  /-- Target offered to, and the cycle of the offer. -/
  offer : Option (Nat × Nat) := none
  /-- Target for which the source is active. -/
  active : Option Nat := none
  /-- While the source settles, the cycle of its retirement (R51). -/
  settling : Option Nat := none
deriving DecidableEq, Repr

/-- The interrupt controller: sources that differ from reset, each target's claimed sources, newest first, and the targets whose
cores are in their wait-for-interrupt state (R52). -/
structure Irq where
  sources : SMap Source := []
  claimed : SMap (List Nat) := []
  asleep : List Nat := []
deriving DecidableEq, Repr

/-! ### Machine time and calendars (spec/03) -/

/-- MT_STATE (R72). -/
inductive TimeMode where
  | acquire | synced | island | returning
deriving DecidableEq, Repr

/-- The machine-time block. -/
structure MTime where
  counter : W64 := 0
  mode : TimeMode := .acquire
  unsync : Bool := true
  /-- REF_SEL: the local reference is selected. -/
  localRef : Bool := true
  /-- MTREF_PRESENT, and the cycle since which MTREF has been present (R65). -/
  present : Bool := false
  since : Nat := 0
  holdover : Bool := false
  lastBeat : BitVec 48 := 0
  offset : W32 := 0
  /-- A valid frame has arrived since the last tested boundary (R58). -/
  heard : Bool := false
  /-- The valid frame that the next tested boundary is compared with (R59). -/
  frame : Option (BitVec 48) := none
  /-- Beat offset of the previous valid frame that differed (R59). -/
  mismatch : Option (BitVec 48) := none
  /-- Acquisition (steps 2 and 3 of R65) is running, and the first of its two frames. -/
  acquiring : Bool := true
  firstFrame : Option (BitVec 48) := none
  /-- The load due at the boundary that the second frame names, and the cycle in which MTREF marks that boundary (R57, R65). -/
  loadDue : Option (BitVec 48) := none
  loadAt : Nat := 0
  /-- Cross-module circuits stop at the next beat boundary (R64, R59). -/
  stopDue : Bool := false
  /-- Last epoch boundary at which the counter started, was loaded, or was tested. -/
  epochDone : BitVec 48 := 0
deriving DecidableEq, Repr

/-- A calendar entry that is pending (R60), `beat` being its next execution. -/
structure CalEntry where
  action : Nat
  arg : W32
  period : Nat
  left : Nat
  beat : BitVec 48
deriving DecidableEq, Repr

/-! ### Regions, loads and tasks (spec/08, 14, 15) -/

/-- The states of R193. -/
inductive RegionState where
  | free | reserved | loaded | running | draining | faulted
deriving DecidableEq, Repr

/-- How a command ended: status of R372 and the fault layout of R373. -/
structure Ending where
  status : Nat
  count : Nat := 0
  value : Nat := 0
  code : Nat := 0
  part : Nat := 0
  engine : Nat := 15
  slot : Nat := 0
  col : Nat := 0
  row : Nat := 0
  list : Nat := 0
  cluster : Nat := 0
deriving DecidableEq, Repr

/-- A section load in progress (R201 to R208). -/
structure Load where
  ctx : Nat
  seq : W32
  image : Nat
  purge : Bool
  drainBeats : Nat
  commitBeat : BitVec 48
  accepted : BitVec 48
  before : RegionState
  /-- L0 has been reached; Ld has been reached; staged and checked; written; the posted commit beat. -/
  started : Bool := false
  closedAt : Option (BitVec 48) := none
  staged : Bool := false
  commit : Option (BitVec 48) := none
deriving DecidableEq, Repr

/-- Where a task stands (R389 to R396). -/
inductive TaskPhase where
  | candidate | asked | granted | running | stopping
deriving DecidableEq, Repr

/-- A task of a region: the RUN_TASK command and its progress. -/
structure Task where
  ctx : Nat
  seq : W32
  lc : Bool
  peak : Nat
  mean : Nat
  notBefore : BitVec 48
  serve : Bool
  serveArg : W32
  table : Nat
  phase : TaskPhase := .candidate
  /-- The entries of the task table, by section cluster (R378), and the chunk count of a serving step (R401). -/
  entries : List (BitVec 1024) := []
  chunks : Nat := 0
  /-- The beat limit as a power of 2 of beats; 0 none (R393). -/
  limit : Nat := 0
  /-- Beat at which it became a candidate. -/
  since : BitVec 48 := 0
  start : BitVec 48 := 0
  started : Bool := false
  /-- Beat boundaries that had passed at S (R393). -/
  startBeats : Nat := 0
  ending : Option Ending := none
  /-- Beat of the ending event, with the engine order used among endings of one beat (R296). -/
  endBeat : BitVec 48 := 0
  stopped : Bool := false
  released : Bool := false
  /-- An uncontained-in-task error fell: the region goes FAULTED at the end (R480). -/
  faulted : Bool := false
deriving DecidableEq, Repr

/-- A region (R189). -/
structure Region where
  state : RegionState := .free
  owner : Nat := 0
  /-- Its clusters in ascending order: index s is section cluster s. -/
  clusters : List Nat := []
  lastCommit : BitVec 48 := 0
  load : Option Load := none
  task : Option Task := none
  /-- A release waits for its clear (R191): context, sequence number of the command, the beat it took effect. -/
  clearing : Option (Nat × W32 × BitVec 48) := none
deriving DecidableEq, Repr

/-! ### Device memory (spec/11) -/

/-- A line of a reuse cache (R278): stack, 512 B line of the stack, present and dirty sectors, keep mark. -/
structure CacheLine where
  stack : Nat
  line : Nat
  sectors : BitVec 8
  dirty : BitVec 8
  keep : Bool
deriving DecidableEq, Repr

/-- Device memory behind the mesh: HBM3E by home-view address and LPDDR5X by its own, byte by byte in canonical form, with
the addresses of poisoned 32 B words; reuse caches (each set's lines, most recent first), granule entries. -/
structure DeviceMemory where
  bytes : List Host.Cell := []
  poison : List Nat := []
  /-- Lines of each memory-side die, most recently used first. -/
  cache : SMap (List CacheLine) := []
  /-- Granule entries: home-view granules from 0, LPDDR5X granules from 524,288 (R276, R277). -/
  granules : SMap (BitVec 8) := []
  /-- Memory-side dies whose reuse cache is being probed (R280). -/
  probing : List Nat := []
  /-- Next chunk, or line, of each scrubber: key 4 × die + scrubber, 3 the reuse cache's (R306, R307). -/
  scrubPos : SMap Nat := []
  /-- Chunks scrubbed by each scrubber, and their number at the last audit (R483). -/
  scrubbed : SMap Nat := []
  audited : SMap Nat := []
deriving DecidableEq, Repr

/-! ### Host side (spec/14) -/

/-- A command in progress (R364). -/
structure Command where
  seq : W32
  desc : BitVec 1024
  started : Bool := false
  /-- Beat at which it started. -/
  start : BitVec 48 := 0
  /-- Its place among the 16 of its context, from which the tags of its cinch packets are made (log 20). -/
  place : Nat := 0
  /-- CINCH_WAIT: 0 no cancel, 1 CINCH_CANCEL sent, 2 taken effect at the unit (R379). -/
  cancel : Nat := 0
deriving DecidableEq, Repr

/-- A context's rings and commands (R361 to R368). -/
structure Context where
  sqHead : Nat := 0
  cqTail : Nat := 0
  phase : Bool := true
  seq : W32 := 0
  armed : Bool := false
  inProgress : List Command := []
  /-- Records that have completed and wait for a slot (R367), oldest first. -/
  waiting : List (BitVec 256) := []
  /-- The cycle since which a record waits for a slot of a full ring (R367). -/
  fullSince : Option Nat := none
  /-- Moved to the other I/O die's dispatch core (R388). -/
  moved : Bool := false
  /-- The affinity probe that runs: first granule and number of granules (R398). -/
  probing : Option (Nat × Nat) := none
deriving DecidableEq, Repr

/-- The host's side: its memory (reached over CXL.cache), the translation cache, MSI-X mask and pending bits, bias bits. -/
structure HostSide where
  bytes : List Host.Cell := []
  contexts : SMap Context := []
  /-- RESERVE_REGION commands that the region manager has taken, in order (R371): context, sequence number, and, where the first
  waits for power, the beat since which it does (R415). -/
  reserving : List (Nat × W32 × Option (BitVec 48)) := []
  /-- Cached translations: context, page, entry; newest first (R360). -/
  xlt : List (Nat × Nat × W64) := []
  masked : List Nat := List.range 65
  msixPending : List Nat := []
  /-- Regions of the HDM ranges in device bias (R358). -/
  deviceBias : List Nat := []
  /-- The last change to host bias: its region and the cycle of the write (R358). -/
  biasChange : Option (Nat × Nat) := none
deriving DecidableEq, Repr

/-- What leaves the module. -/
inductive Output where
  | msix (vector : Nat)
  | mctp (message : List Byte)
  | cxlData (data : List Byte) (poison : Bool)
  | readValue (req : Nat) (value : W64)
  | frame (link : Nat) (bits : BitVec 3200)
deriving DecidableEq, Repr

/-! ### Boot, identity and custody (spec/18) -/

/-- What a flash slot holds (R457): whether each check of R458 passes on its contents, and its manifest's fields. -/
structure FlashSlot where
  structureOk : Bool := false
  signatureOk : Bool := false
  requiredOk : Bool := false
  digestsOk : Bool := false
  svn : Nat := 0
  raiseFloor : Bool := false
  manifest : List Byte := []
deriving DecidableEq, Repr

/-- A boot record copy (R457); `valid` when its MAGIC and DIGEST check. -/
structure BootRecord where
  valid : Bool := false
  gen : W32 := 0
  pref : Nat := 0
  trial : Bool := false
  trialSlot : Nat := 0
  tries : Nat := 0
  floor : Nat := 0
deriving DecidableEq, Repr

/-- A record of the index journal (R466); `good` when its digest checks. -/
structure JournalRecord where
  dik : Bool
  serial : Nat
  next : Nat
  seq : Nat
  good : Bool
deriving DecidableEq, Repr

/-- A record of the custody log (R475). -/
structure CustodyRecord where
  code : Nat
  mtime : W64
  requester : Nat
  digest : BitVec 256
deriving DecidableEq, Repr

/-- Where the boot stands (R453). -/
inductive BootPhase where
  /-- Before the rail ramp has ended. -/
  | off
  /-- In the boot ROM. -/
  | rom
  /-- A slot has passed. -/
  | passed
  /-- I/O enable is done. -/
  | ioEnabled
  /-- Boot release is done. -/
  | released
  /-- Boot failure (R460). -/
  | failed
  /-- Quiesced (R412). -/
  | quiesced
deriving DecidableEq, Repr

/-- Boot, identity and the flash. -/
structure Boot where
  phase : BootPhase := .off
  straps : BitVec 14 := 0
  slotA : FlashSlot := { structureOk := true, signatureOk := true, requiredOk := true, digestsOk := true }
  slotB : FlashSlot := {}
  record0 : BootRecord := { valid := true, gen := 1 }
  record1 : BootRecord := {}
  runSlot : Nat := 0
  fallback : Bool := false
  trial : Bool := false
  /-- Management core 0 was reset since power-on (R470), and is halted in the ROM (R456). -/
  mgmt0Reset : Bool := false
  mgmt0Halted : Bool := false
  /-- Management core 0 runs the ROM again on the running slot (R456). -/
  reverify : Bool := false
  perst : Bool := true
  configReady : Bool := false
  linkUp : Bool := false
  boots : Nat := 0
  /-- A module reset waits for the control plane's release (R377, R385). -/
  resetPending : Bool := false
  fprog : Bool := false
  cfgFail : Bool := false
  fatalLow : Bool := false
  viral : Bool := false
deriving DecidableEq, Repr

/-- The signing keys (R462 to R468). -/
structure Identity where
  ok : Bool := false
  uncertified : Bool := false
  rekeys : Nat := 0
  dikSerial : Nat := 0
  akSerial : Nat := 0
  dikNext : Nat := 0
  akNext : Nat := 0
  /-- End of the AK block reserved in this power cycle (R465). -/
  akReserved : Nat := 0
  journal : List JournalRecord := []
  certLoaded : List Byte := []
  /-- The AK certificate's bytes (R462). -/
  akCert : List Byte := []
  /-- The management cycle until which Sorrel handles the latest request (R469). -/
  busyUntil : Nat := 0
deriving DecidableEq, Repr

/-- The custody logic (R471 to R475). -/
structure Custody where
  strap : Bool := false
  window : Nat := 0
  /-- The management cycle in which the window opened (R471). -/
  openedAt : Nat := 0
  sealOpen : Bool := false
  latched : Bool := false
  log : List CustodyRecord := []
  acts : Nat := 0
deriving DecidableEq, Repr

/-! ### Power (spec/16) -/

/-- A booking of the Bridle: context, region, peak and mean W, start beat. -/
structure Booking where
  ctx : Nat
  region : Nat
  peak : Nat
  mean : Nat
  start : BitVec 48
deriving DecidableEq, Repr

/-- A grant request that waits (R420). -/
structure GrantRequest where
  ctx : Nat
  region : Nat
  peak : Nat
  mean : Nat
  notBefore : BitVec 48
  lc : Bool
  /-- The beat from which the answer stands, once given. -/
  granted : Option (BitVec 48) := none
  /-- A forecast has been asked for (R421). -/
  forecast : Bool := false
deriving DecidableEq, Repr

/-- The Bridle, the input monitor and the thermal hardware. Caps and budget inputs are its page's registers. -/
structure Bridle where
  bookings : List Booking := []
  request : Option GrantRequest := none
  announced : Nat := 0
  /-- FC_REQ (R427). -/
  fcPending : Bool := false
  fcLevel : Nat := 0
  stale : Bool := false
  lastHeartbeat : BitVec 48 := 0
  /-- Shed conditions that hold (R410). -/
  below48 : Bool := false
  below44 : Bool := false
  shedN : Bool := false
  shed : Glide := {}
  /-- The beat in which the last shed began or ended, and its level in W (R422). -/
  shedBeat : BitVec 48 := 0
  shedWatts : Nat := 0
  limiting : Bool := false
  /-- Thermal pace by compute die; 8 stands for every cluster, an I/O die's trip (R425). -/
  thermal : SMap Glide := []
  /-- Units above their warning and their trip: compute dies 0 to 7, memory-side 8 to 15, stacks 16 to 39, I/O dies 40, 41. -/
  warned : List Nat := []
  tripped : List Nat := []
  /-- Messages sent (SEQ of R422). -/
  messages : Nat := 0
  /-- Energy residues below 1 mJ and 1 µJ by counter (R405, R416). -/
  residues : SMap Nat := []
deriving DecidableEq, Repr

/-! ### Mesh (spec/12) -/

/-- A packet held at an input of a router (R311): 0 to 3 the links of R111, 4 the local port, 5 the memory-side port; at a hub 2 the
trunk engines, 4 the other endpoints, 6 + y the link from row y of the grid. -/
structure HeldPacket where
  packet : Packet
  input : Nat
  /-- It has left the Stitch store, and stands in no input's buffer (R321). -/
  stored : Bool := false
  /-- Arrival cycles of the flits that are here, oldest first; flits that have arrived, and left, in all. -/
  flits : List Nat := []
  got : Nat := 0
  sent : Nat := 0
  /-- First cycle in which its head may leave its endpoint (R337). -/
  ready : Nat := 0
deriving DecidableEq, Repr

/-- A Stitch packet in a router's store (R321): the cycle in which it entered, whether it has merged, and whether it may
leave. -/
structure StitchHeld where
  packet : Packet
  input : Nat
  entered : Nat
  merged : Bool := false
  free : Bool := false
deriving DecidableEq, Repr

/-- Where an acknowledgement goes: endpoint, module and transaction number (R321). -/
structure AckTarget where
  src : BitVec 16
  smod : BitVec 14
  tag : BitVec 10
deriving DecidableEq, Repr

/-- A packet whose tail has left its last router, and the cycle in which the tail reaches the endpoint (R309). -/
structure Delivery where
  packet : Packet
  due : Nat
deriving DecidableEq, Repr

/-- A router or hub. The maps are keyed by output, by 2 × output + class (`channelTurn`), or by 8 × output + 2 × channel + class
(`inputTurn`). -/
structure RouterState where
  held : List HeldPacket := []
  /-- First flit slot in which the output grants again, and in which a port's input takes a flit; a memory-side port has four slots in a
cycle (R309, R312). -/
  nextGrant : SMap Nat := []
  nextIn : SMap Nat := []
  inputTurn : SMap Nat := []
  channelTurn : SMap Nat := []
  /-- LC grants in a row while a BE flit waited (R312). -/
  lcRun : SMap Nat := []
  /-- Cycle of the last control grant while another channel waited, plus one. -/
  control : SMap Nat := []
  store : List StitchHeld := []
  notes : SMap (AckTarget × AckTarget) := []
deriving DecidableEq, Repr

/-- The mesh: routers 0 to 319, hubs 320 and 321, and the packets delivered to their endpoints. -/
structure Mesh where
  routers : SMap RouterState := []
  delivered : List Delivery := []
  /-- By cinch unit: the first cycle in which its next operation may take effect (R337). -/
  cinchNext : SMap Nat := []
  /-- By cluster: one more than the beat in which it last sent or received a request, response or Stitch packet (R513). -/
  spoke : SMap Nat := []
deriving DecidableEq, Repr

/-! ### Cinches (spec/13) -/

/-- A registered watch (R338 to R340). -/
structure CinchWatch where
  ctx : Nat
  vid : Nat
  cond : Nat
  comparand : W64
  src : BitVec 16
  smod : BitVec 14
  wkind : Nat
  wtarget : Nat
  cookie : W32
  gate : Bool
deriving DecidableEq, Repr

/-- A barrier with arrivals outstanding (R348): physical cinch, VID, generation, clusters that arrived. -/
structure BarrierEntry where
  cinch : Nat
  vid : Nat
  gen : W64
  arrived : List Nat
deriving DecidableEq, Repr

/-- A cinch unit: values and poison by number within the unit, translation entries, watches in order of registration. -/
structure CinchUnit where
  values : SMap W64 := []
  poison : List Nat := []
  xlt : SMap W32 := []
  watches : List CinchWatch := []
  barriers : List BarrierEntry := []
  /-- Kind 2 wakes that wait for a credit, oldest first. -/
  held : List Packet := []
  /-- WAKE_RETARGET.BUSY. -/
  busy : Bool := false
deriving DecidableEq, Repr

/-- A wake record (R343). -/
structure WakeRecord where
  cookie : W32
  vid : BitVec 12
  value : W64
  poison : Bool
deriving DecidableEq, Repr

/-- A dispatch core's wake queue and the credits that the units hold for it. -/
structure WakeQueue where
  records : List WakeRecord := []
  credit : Nat := 64
deriving DecidableEq, Repr

/-! ### Harness links (spec/17) -/

/-- A token in a channel's store: outbound with the counter cycle in which it was driven onto the seam, inbound with the
cycle in which it is to be driven (R440). -/
structure ChannelToken where
  tok : Token
  cycle : Nat
deriving DecidableEq, Repr

/-- The states of R437. -/
inductive ChannelMode where
  | closed | opened | stopped
deriving DecidableEq, Repr

/-- One channel in one direction of a link (R437 to R441). -/
structure Channel where
  mode : ChannelMode := .closed
  ctx : Nat := 0
  line : Nat := 0
  base : Nat := 0
  log2 : Nat := 0
  fold : Nat := 0
  tokens : List ChannelToken := []
  /-- Outbound: link credit. Inbound: the landing store's origin credit (R439). -/
  credit : Nat := 0
  /-- Outbound: credits pending toward the edge switchbox. Inbound: link credits not yet sent. -/
  owed : Nat := 0
  /-- Outbound: the cycle since which the launch store waits for link credit (R452). -/
  waitFrom : Option Nat := none
deriving DecidableEq, Repr

/-- LNK_STATE.STATE (R451). -/
inductive LinkMode where
  | off | training | up | retraining | failed
deriving DecidableEq, Repr

/-- A data frame sent and not acknowledged, and how often it was resent (R434, R435). -/
structure SentFrame where
  seq : Nat
  /-- The frame's header without ACK and NAK, which every sending sets anew, and its slots. -/
  frame : BitVec 3200
  resent : Nat := 0
deriving DecidableEq, Repr

/-- A packet that waits to be sent (R436): its pair and set, the context that its slots are charged to, and the flits that are
left of it; `started` when its first slot has been sent. -/
structure LinkItem where
  pair : Nat
  set : Nat
  ctx : Nat
  started : Bool := false
  words : List (BitVec 512)
deriving DecidableEq, Repr

/-- A Harness link (R432 to R451). -/
structure Link where
  mode : LinkMode := .off
  fail : Nat := 0
  lanes : BitVec 4 := 0
  /-- Lanes retired here (R447). -/
  retired : BitVec 4 := 0
  lh : Nat := 0
  rtt : Nat := 0
  /-- Peer module, trunk and link. -/
  peer : Option (BitVec 14 × BitVec 3 × BitVec 3) := none
  /-- Two lanes were active when the link last came up (R447). -/
  degraded : Bool := false
  /-- The link has been up. -/
  wasUp : Bool := false
  sendSeq : Nat := 0
  recvSeq : Nat := 0
  /-- Frames are being discarded until the expected one arrives (R434). -/
  nak : Bool := false
  replay : List SentFrame := []
  sendCredit : SMap Nat := []
  returns : SMap Nat := []
  items : List LinkItem := []
  /-- Circuit slots that wait for a frame: up to three tokens of one round, each with its channel (R433, R440). -/
  slots : List (List (Nat × ChannelToken)) := []
  /-- Channel last served for each class, and LC slots in a row while a BE one waited (R312, R436). -/
  turn : SMap Nat := []
  lcRun : Nat := 0
  /-- The cycle since which a packet head waits for pair credit (R452). -/
  headWait : Option Nat := none
  /-- NAK as the peer's last frame had it (R434). -/
  peerNak : Bool := false
  /-- The cycle in which ACK last advanced, or frames became unacknowledged (R435). -/
  ackAt : Nat := 0
  /-- The management cycle in which step 1 of the training last began (R7, R446, R449). -/
  trainAt : Nat := 0
  /-- Flits of a packet not yet whole, by pair and set. -/
  assembling : SMap (List (BitVec 512)) := []
  /-- Packets that have arrived whole and wait for the hub: the packet, and set B. -/
  arrived : List (Packet × Bool) := []
  outbound : SMap Channel := []
  inbound : SMap Channel := []
  laneTest : SMap W32 := []
deriving DecidableEq, Repr

/-- The trunk engines and what the I/O dies keep for them. -/
structure Harness where
  links : SMap Link := []
  /-- Entries of the module route table (R443). -/
  routes : SMap W32 := []
  done : Bool := false
  /-- The management cycle in which training started after power-on (R7, R449). -/
  trainAt : Nat := 0
deriving DecidableEq, Repr

/-! ### Readiness and spares (spec/14, 19) -/

/-- What has come up (R384, R385): memory-side dies, compute dies, LPDDR5X, and whether a seam is degraded. -/
structure Ready where
  msd : List Nat := []
  cd : List Nat := []
  lpddr : Bool := false
  seamDegraded : Bool := false
  /-- Compute dies kept down by a mesh link that cannot be repaired (R494). -/
  down : List Nat := []
deriving DecidableEq, Repr

/-- An entry of the spare map (R490). -/
structure SpareEntry where
  kind : Nat
  repaired : Bool := false
  loc : Nat
  beat : BitVec 48
deriving DecidableEq, Repr

/-- The spare map and the evidence and retirements that stand in hardware (R484 to R494). -/
structure Spares where
  entries : List SpareEntry := []
  gen : Nat := 0
  /-- Pseudo-channels (32 × stack + pseudo-channel) and packages retired at the last power-on (R493). -/
  channels : List Nat := []
  packages : List Nat := []
  /-- Row repairs queued: stack, pseudo-channel, bank, row (R492). -/
  repairs : List (Nat × Nat × Nat × Nat) := []
  /-- Row faults by pseudo-channel (32 × stack + pseudo-channel) and the beat in which they fell (R484). -/
  rowFaults : List (Nat × Nat) := []
  /-- Retirements that wait for their region's release (R487). -/
  pending : List RetireUnit := []
deriving DecidableEq, Repr

/-- Self-test (R495, R496): clusters under test with the cycle of their start, and the last test's outcome. -/
structure SelfTests where
  running : List (Nat × Nat) := []
  cluster : Nat := 0
  pass : Bool := false
  stopped : Bool := false
deriving DecidableEq, Repr

/-- What the probe pins have latched for a round (R509). -/
structure Probes where
  /-- The cycle in which the round began. -/
  round : Nat := 0
  /-- For each pin the die and the signal that it carries. -/
  pins : List (Option (Nat × Nat)) := []
deriving DecidableEq, Repr

/-! ### The module -/

/-- The state of the module. `pending`, `out`, `clock`, `freeCount` are the model's own (log 1, 6). -/
structure State where
  /-- Commands that wait, first in first out. -/
  pending : List Instr := []
  /-- What has left the module, oldest first. -/
  out : List Output := []
  /-- Fabric cycles since the first power-on. -/
  clock : Nat := 0
  /-- Beat boundaries passed since the first power-on. -/
  beats : Nat := 0
  /-- Cycles of the management domain, which does not depend on MTREF (R7, R67). -/
  mgmtClock : Nat := 0
  /-- Index of the next free value. -/
  freeCount : Nat := 0
  pages : SMap Page := []
  irq : Irq := {}
  mt : MTime := {}
  /-- Calendars by page number (R61). -/
  cals : SMap (List CalEntry) := []
  clusters : SMap ClusterState := []
  probes : Probes := {}
  flights : List Flight := []
  /-- Credits on the credit lanes (R170). -/
  lanes : List LaneCredit := []
  regions : SMap Region := []
  mem : DeviceMemory := {}
  host : HostSide := {}
  boot : Boot := {}
  ident : Identity := {}
  custody : Custody := {}
  bridle : Bridle := {}
  mesh : Mesh := {}
  cinch : SMap CinchUnit := []
  wakes : SMap WakeQueue := []
  harness : Harness := {}
  ready : Ready := {}
  spares : Spares := {}
  tests : SelfTests := {}
  /-- Energy meters in µJ, by 256 × page + counter (R416). -/
  energy : SMap Nat := []
  /-- Bytes moved in the present beat: page, context, bytes (R404, R405). -/
  moved : List (Nat × Nat × Nat) := []
deriving DecidableEq, Repr

/-- Why a step stops with a fault. No command of the module does: the manual gives every error an outcome (R36, R479). -/
inductive Fault where
  /-- Raised by nothing. -/
  | unused
deriving DecidableEq, Repr

/-- Why a step is refused. -/
inductive Refusal where
  /-- Raised by exec's arm of a command that has no meaning yet: safe, nothing is claimed of it. -/
  | notModelled (mnemonic : String)
deriving DecidableEq, Repr

/-- The module right after power-on, before boot (log 4): every register at its reset value, the queue empty. -/
def State.reset : State := {}

end Sys2Proof.Machine
end

