-- ==== Sys2Proof/Machine/Flags.lean ====
section
/-! DEFINITION. Flag computations: the error record's precedence (R37), event latches (R41 to R43), control-token predicates
(R94), and the acceptance tests on wrapping numbers (R56, R234). -/
namespace Sys2Proof.Machine

/-- An `ERR_CAUSE` record of R36 without its OVERFLOW bit. -/
def errRecord (cls code detail : Nat) : W32 :=
  BitVec.ofNat 32 (2 ^ 31 + (cls % 4) <<< 28 + (code % 256) <<< 20 + detail % 2 ^ 20)

/-- VALID of an error record. -/
def errValid (e : W32) : Bool := e.toNat.testBit 31

/-- CLASS of an error record. -/
def errClass (e : W32) : Nat := field e.toNat 29 28

/-- R37: the record after an error arrives. -/
def errAfter (e : W32) (cls code detail : Nat) : W32 :=
  if !errValid e then errRecord cls code detail
  else if errClass e < cls then errRecord cls code detail ||| 0x40000000#32
  else e ||| 0x40000000#32

/-- Whether the error of class `cls` becomes the record (R37). -/
def errTaken (e : W32) (cls : Nat) : Bool := !errValid e || decide (errClass e < cls)

/-- The mask of event `n`. -/
def eventBit (n : Nat) : W32 := BitVec.ofNat 32 (2 ^ n)

/-- `EVENT_LEVEL` as read: bit 0 is `ERR_CAUSE.VALID` (R42). -/
def Page.levelRead (g : Page) : W32 := (g.level &&& 0xFFFFFFFE#32) ||| (if errValid g.err then 1#32 else 0#32)

/-- The page's summary (R43). -/
def Page.summary (g : Page) : Bool := g.latch &&& g.enable != 0#32

/-- Events driven for one cycle, a pulse or a force: the latch is set (R41, R42). -/
def Page.drive (g : Page) (clock : Nat) (bits : W32) : Page :=
  { g with latch := g.latch ||| bits
           driven := (clock + 1, if g.driven.1 = clock + 1 then g.driven.2 ||| bits else bits) }

/-- The events driven in cycle `clock`. -/
def Page.drivenAt (g : Page) (clock : Nat) : W32 := if g.driven.1 = clock + 1 then g.driven.2 else 0

/-- A pulse event in cycle `clock`. -/
def Page.pulse (g : Page) (clock n : Nat) : Page := g.drive clock (eventBit n)

/-- A condition event begins to hold (R41, R42). -/
def Page.raise (g : Page) (n : Nat) : Page :=
  { g with level := g.level ||| eventBit n, latch := g.latch ||| eventBit n }

/-- A condition event ceases; its latch stays (R41). -/
def Page.drop (g : Page) (n : Nat) : Page := { g with level := g.level &&& ~~~(eventBit n) }

/-- Whether an error goes before another of its cycle: higher class, then lower code (R37). -/
def errBefore (a b : Nat × Nat × Nat) : Bool := decide (b.1 < a.1) || (a.1 == b.1 && decide (a.2.1 < b.2.1))

/-- An error among those of its cycle, in the order of R37. -/
def errInsert (e : Nat × Nat × Nat) : List (Nat × Nat × Nat) → List (Nat × Nat × Nat)
  | [] => [e]
  | x :: xs => if errBefore e x then e :: x :: xs else x :: errInsert e xs

/-- The record that the errors of a cycle make of the record before it (R37). -/
def errFold (base : W32) (es : List (Nat × Nat × Nat)) : W32 := es.foldl (fun w e => errAfter w e.1 e.2.1 e.2.2) base

/-- An error of cycle `clock` is recorded and latches event 0 (R37). -/
def Page.report (g : Page) (clock cls code detail : Nat) : Page :=
  let base := if g.errCycle = clock + 1 then g.errBase else g.err
  let es := if g.errCycle = clock + 1 then errInsert (cls, code, detail) g.errs else [(cls, code, detail)]
  { g with err := errFold base es, errCycle := clock + 1, errBase := base, errs := es, latch := g.latch ||| 1#32 }

/-- ERR_CAUSE cleared in cycle `clock`: it ends holding the errors of that very cycle (R37). -/
def Page.clearErr (g : Page) (clock : Nat) : Page :=
  if g.errCycle = clock + 1 then { g with err := errFold 0 g.errs, errBase := 0 } else { g with err := 0 }

/-- A w1c write to `EVENT_LATCH` in cycle `clock`: a bit clears only where its level is 0 in that cycle (R9, R41). -/
def Page.clearLatch (g : Page) (clock : Nat) (bits : W32) : Page :=
  { g with latch := g.latch &&& ~~~(bits &&& ~~~(g.levelRead ||| g.drivenAt clock)) }

/-- Counter `n` of a page. -/
def Page.counter (g : Page) (n : Nat) : W64 := SMap.getD g.counters n 0

/-- Counter `n` advanced by `d`, wrapping at 2^64 (R38). -/
def Page.count (g : Page) (n d : Nat) : Page :=
  { g with counters := SMap.mod g.counters n 0 fun c => c + BitVec.ofNat 64 d }

/-- Whether counter value `c` has been reached (R234). -/
def reachedCount (count c : W32) : Bool := decide ((count - c).toNat < 2 ^ 31)

/-- Whether beat `b` lies at or before beat `now` (R62's rule of half the range). -/
def beatDue (b now : BitVec 48) : Bool := decide ((now - b).toNat < 2 ^ 47)

/-- The payload of a control token (R94). -/
def controlPayload (value level : Nat) (first last exhaust : Bool) : BitVec 128 :=
  let pred := ofBool last + 2 * ofBool first + 4 * ofBool (!last) + 8 * ofBool (!first) + 16 * (value % 2)
    + 32 * ofBool exhaust + 128
  BitVec.ofNat 128 (value % 2 ^ 32 + (level % 4) <<< 32 + ofBool first <<< 34 + ofBool last <<< 35
    + ofBool exhaust <<< 36 + pred <<< 40)

/-- `PRED`[n] of a control token; a poisoned one reads as 0 for every n (R98). -/
def tokenPred (t : Token) (n : Nat) : Bool := !t.poison && t.payload.toNat.testBit (40 + n)

end Sys2Proof.Machine
end

