-- ==== Sys2Proof/Machine/Ops.lean ====
section
/-! DEFINITION. The named operations over the state: pages and their directory (R44, R45), errors and events, machine time,
clusters and cores, row memory, arrival counters, device and host memory. -/
namespace Sys2Proof.Machine

/-- What a command answers. -/
abbrev Res := Host.Outcome State Fault Refusal

/-! ### The page directory (R44, R45) -/

/-- The blocks of R45. -/
inductive Block where
  | module | barDecode | mtime | bridle | irqc | regionMgr | cinch | context | mgmt | flash | attest | custody | thermal
  | msd | hbmCtrl | reuseCache | scrub | mstitch | mphy | ioDie | dispatch | trunk | lpddrCtrl | cxlAdapter
  | cd | seam | mesh | msport | clCtrl | rowmem | arbiter | handle | fe | stream | awl | router | clPower | telemetry
deriving DecidableEq, Repr

/-- `BLOCK_TYPE` (R45). -/
def blockType : Block → Nat
  | .module => 0x01 | .barDecode => 0x02 | .mtime => 0x03 | .irqc => 0x04 | .context => 0x05 | .bridle => 0x06
  | .cinch => 0x07 | .regionMgr => 0x08 | .dispatch => 0x09
  | .mgmt => 0x10 | .flash => 0x11 | .attest => 0x12 | .custody => 0x13 | .thermal => 0x14
  | .msd => 0x20 | .hbmCtrl => 0x21 | .reuseCache => 0x22 | .scrub => 0x23 | .mstitch => 0x24 | .mphy => 0x25
  | .ioDie => 0x28 | .trunk => 0x29 | .lpddrCtrl => 0x2A | .cxlAdapter => 0x2B
  | .cd => 0x30 | .seam => 0x31 | .mesh => 0x32 | .msport => 0x33
  | .clCtrl => 0x38 | .rowmem => 0x39 | .arbiter => 0x3A | .handle => 0x3B | .fe => 0x3C | .stream => 0x3D
  | .awl => 0x3E | .router => 0x3F | .clPower => 0x40 | .telemetry => 0x41

/-- Where a page stands: its block, PAGE_INDEX and INSTANCE (R28). -/
structure PageInfo where
  block : Block
  index : Nat
  inst : Nat
deriving DecidableEq, Repr

/-- Pages of the module range. -/
def modulePage (n : Nat) : Option PageInfo :=
  match n with
  | 0 => some ⟨.module, 0, 0⟩ | 1 => some ⟨.barDecode, 0, 0⟩ | 2 => some ⟨.mtime, 0, 0⟩ | 3 => some ⟨.bridle, 0, 0⟩
  | 4 => some ⟨.irqc, 0, 0⟩ | 5 => some ⟨.regionMgr, 0, 0⟩ | 8 => some ⟨.cinch, 0, 0⟩ | 9 => some ⟨.cinch, 0, 1⟩
  | 0x60 => some ⟨.mgmt, 0, 0⟩ | 0x61 => some ⟨.flash, 0, 0⟩ | 0x62 => some ⟨.attest, 0, 0⟩
  | 0x63 => some ⟨.custody, 0, 0⟩ | 0x64 => some ⟨.thermal, 0, 0⟩
  | n => if 0x10 ≤ n ∧ n < 0x50 then some ⟨.context, 0, n - 0x10⟩ else none

/-- Pages of memory-side die `d`. -/
def memorySidePage (d i : Nat) : Option PageInfo :=
  match i with
  | 0 => some ⟨.msd, 0, d⟩ | 4 => some ⟨.reuseCache, 4, d⟩ | 5 => some ⟨.mstitch, 5, d⟩ | 6 => some ⟨.scrub, 6, d⟩
  | 7 => some ⟨.mphy, 7, d⟩
  | i => if 1 ≤ i ∧ i ≤ 3 then some ⟨.hbmCtrl, i, 3 * d + (i - 1)⟩ else none

/-- Pages of I/O die `d`. -/
def ioPage (d i : Nat) : Option PageInfo :=
  if i = 0 then some ⟨.ioDie, 0, d⟩
  else if i ≤ 8 then some ⟨.dispatch, i, 8 * d + (i - 1)⟩
  else if i ≤ 11 then some ⟨.trunk, i, 3 * d + (i - 9)⟩
  else if i ≤ 19 then some ⟨.lpddrCtrl, i, 8 * d + (i - 12)⟩
  else if i = 20 then (if d = 0 then some ⟨.cxlAdapter, 20, 0⟩ else none)
  else if i = 21 then some ⟨.router, 21, 320 + d⟩
  else none

/-- Pages of compute die `d`. -/
def computePage (d i : Nat) : Option PageInfo :=
  if i = 0 then some ⟨.cd, 0, d⟩
  else if i ≤ 4 then some ⟨.seam, i, d⟩
  else if i = 5 then some ⟨.mesh, 5, d⟩
  else if i ≤ 13 then some ⟨.msport, i, d⟩
  else none

/-- Pages of cluster `k`. -/
def clusterPage (k i : Nat) : Option PageInfo :=
  match i with
  | 0 => some ⟨.clCtrl, 0, k⟩ | 1 => some ⟨.rowmem, 1, k⟩ | 2 => some ⟨.arbiter, 2, k⟩ | 3 => some ⟨.handle, 3, k⟩
  | 8 => some ⟨.stream, 8, k⟩ | 9 => some ⟨.awl, 9, k⟩ | 10 => some ⟨.router, 10, k⟩ | 11 => some ⟨.clPower, 11, k⟩
  | i => if 4 ≤ i ∧ i ≤ 7 then some ⟨.fe, i, k⟩ else if 16 ≤ i ∧ i ≤ 47 then some ⟨.telemetry, i, k⟩ else none

/-- The page of a page number (BAR0 offset over 4 KiB); `none` where the directory assigns none (R44, R45). -/
def pageInfo (n : Nat) : Option PageInfo :=
  if n < 0x100 then modulePage n
  else if 0x1000 ≤ n ∧ n < 0x1800 then memorySidePage ((n - 0x1000) / 0x100) (n % 0x100)
  else if 0x2000 ≤ n ∧ n < 0x2200 then ioPage ((n - 0x2000) / 0x100) (n % 0x100)
  else if 0x3000 ≤ n ∧ n < 0x3800 then computePage ((n - 0x3000) / 0x100) (n % 0x100)
  else if 0x4000 ≤ n ∧ n < 0x9000 then clusterPage ((n - 0x4000) / 0x40) (n % 0x40)
  else none

/-- The block of a page. -/
def pageBlock (n : Nat) : Option Block := (pageInfo n).map (·.block)

/-- Management-plane pages (R45). -/
def isMgmtPage (n : Nat) : Bool :=
  match pageBlock n with
  | some .mgmt | some .flash | some .attest | some .custody | some .thermal | some .scrub => true
  | _ => false

/-- Requesters 16 and 17 are the management cores (R474). -/
def isMgmtReq (r : Req) : Bool := r.val == 16 || r.val == 17

def pgModule : Nat := 0
def pgBarDecode : Nat := 1
def pgMtime : Nat := 2
def pgBridle : Nat := 3
def pgIrqc : Nat := 4
def pgRegionMgr : Nat := 5
def pgMgmt : Nat := 0x60
def pgFlash : Nat := 0x61
def pgAttest : Nat := 0x62
def pgCustody : Nat := 0x63
def pgThermal : Nat := 0x64
def pgCinch (u : Nat) : Nat := 8 + u
def pgContext (x : Nat) : Nat := 0x10 + x
def pgMsd (d : Nat) : Nat := 0x1000 + 0x100 * d
def pgHbm (stack : Nat) : Nat := 0x1001 + 0x100 * (stack / 3) + stack % 3
def pgReuse (d : Nat) : Nat := 0x1004 + 0x100 * d
def pgScrub (d : Nat) : Nat := 0x1006 + 0x100 * d
def pgMstitch (d : Nat) : Nat := 0x1005 + 0x100 * d
def pgIoDie (d : Nat) : Nat := 0x2000 + 0x100 * d
def pgDispatch (t : Nat) : Nat := 0x2001 + 0x100 * (t / 8) + t % 8
def pgTrunk (t : Nat) : Nat := 0x2009 + 0x100 * (t / 3) + t % 3
def pgLpddr (p : Nat) : Nat := 0x200C + 0x100 * (p / 8) + p % 8
def pgCxl : Nat := 0x2014
def pgCd (d : Nat) : Nat := 0x3000 + 0x100 * d
def pgSeam (d e : Nat) : Nat := 0x3001 + 0x100 * d + e
def pgMesh (d : Nat) : Nat := 0x3005 + 0x100 * d
def pgMsport (d x : Nat) : Nat := 0x3006 + 0x100 * d + x
def pgCl (k i : Nat) : Nat := 0x4000 + 0x40 * k + i
def pgClCtrl (k : Nat) : Nat := pgCl k 0
def pgRowmem (k : Nat) : Nat := pgCl k 1
def pgArbiter (k : Nat) : Nat := pgCl k 2
def pgHandle (k : Nat) : Nat := pgCl k 3
def pgFe (k e : Nat) : Nat := pgCl k (4 + e)
def pgStream (k : Nat) : Nat := pgCl k 8
def pgAwl (k : Nat) : Nat := pgCl k 9
def pgClPower (k : Nat) : Nat := pgCl k 11
def pgTelemetry (k j : Nat) : Nat := pgCl k (16 + j)
/-- The ROUTER page of router `r`: 320 and 321 are the hubs. -/
def pgRouter (r : Nat) : Nat := if r < 320 then pgCl r 10 else 0x2015 + 0x100 * (r - 320)

/-! ### Pages of the state -/

/-- Page `n`. -/
def State.page (s : State) (n : Nat) : Page := SMap.getD s.pages n {}

/-- Page `n` changed by `f`. -/
def State.modPage (s : State) (n : Nat) (f : Page → Page) : State := { s with pages := SMap.mod s.pages n {} f }

/-- An error is recorded in page `n` (R37). -/
def State.report (s : State) (n cls code detail : Nat) : State := s.modPage n (·.report s.clock cls code detail)

/-- A pulse event of page `n`. -/
def State.pulse (s : State) (n e : Nat) : State := s.modPage n (·.pulse s.clock e)

/-- A condition event begins. -/
def State.raiseEvent (s : State) (n e : Nat) : State := s.modPage n (·.raise e)

/-- A condition event ends. -/
def State.dropEvent (s : State) (n e : Nat) : State := s.modPage n (·.drop e)

/-- Counter `c` of page `n` advances by `d`. -/
def State.count (s : State) (n c d : Nat) : State := s.modPage n (·.count c d)

/-- A counter that shows a number set to it (R477's counter 1). -/
def State.setCounter (s : State) (n c v : Nat) : State :=
  s.modPage n fun g => { g with counters := SMap.put g.counters c (BitVec.ofNat 64 v) }

/-- The stored word of a block-specific register, `d` its reset value. -/
def State.reg (s : State) (n off : Nat) (d : Nat := 0) : Nat := ((SMap.get? (s.page n).regs off).map (·.toNat)).getD d

/-- A block-specific register's stored word. -/
def State.setReg (s : State) (n off w : Nat) : State :=
  s.modPage n fun g => { g with regs := SMap.put g.regs off (BitVec.ofNat 32 w) }

/-- Something leaves the module. -/
def State.emit (s : State) (o : Output) : State := { s with out := s.out ++ [o] }

/-- MSI-X vector `v` is sent; a masked one is held pending (R368). -/
def State.sendMsix (s : State) (v : Nat) : State :=
  if s.host.masked.contains v then
    if s.host.msixPending.contains v then s
    else { s with host := { s.host with msixPending := s.host.msixPending ++ [v] } }
  else s.emit (.msix v)

/-- The next free index, and the state after taking it (log 6). -/
def State.fresh (s : State) : Nat × State := (s.freeCount, { s with freeCount := s.freeCount + 1 })

/-- The first of `n` free indices, and the state after taking them. -/
def State.freshN (s : State) (n : Nat) : Nat × State := (s.freeCount, { s with freeCount := s.freeCount + n })

/-! ### The management plane (R24) -/

/-- The management plane is stalled: core 0 runs the ROM after a reset, is halted in it, or is held by FPROG (R24, R456, R505). -/
def Boot.mgmtStalled (b : Boot) : Bool := b.reverify || b.mgmt0Halted || b.fprog

/-- Sorrel runs on management core 0. -/
def Boot.sorrelUp (b : Boot) : Bool := (b.phase == .ioEnabled || b.phase == .released) && !b.mgmtStalled

/-- The management domain's clock reaches `c` (R7). -/
def State.reachMgmt (s : State) (c : Nat) : State := { s with mgmtClock := max s.mgmtClock c }

/-! ### Machine time (R5, R56) -/

/-- The machine-time counter as a number. -/
def State.now (s : State) : Nat := s.mt.counter.toNat

/-- The beat number: counter bits [59:12] (R56). -/
def State.beat (s : State) : BitVec 48 := BitVec.ofNat 48 (s.now >>> 12)

/-- The round phase (R5). -/
def State.phase (s : State) : Nat := s.now % 16

/-! ### Clusters and cores -/

/-- Cluster `k`. -/
def State.cl (s : State) (k : Nat) : ClusterState := SMap.getD s.clusters k {}

/-- Cluster `k` changed by `f`. -/
def State.modCl (s : State) (k : Nat) (f : ClusterState → ClusterState) : State :=
  { s with clusters := SMap.mod s.clusters k {} f }

/-- The index of core (i, j) of its cluster. -/
def coreNum (c : CoreId) : Nat := 32 * c.i.val + c.j.val

/-- Core `n` = 32 i + j. -/
def ClusterState.core (c : ClusterState) (n : Nat) : CoreState := SMap.getD c.cores n {}

/-- Core `n` changed by `f`. -/
def ClusterState.modCore (c : ClusterState) (n : Nat) (f : CoreState → CoreState) : ClusterState :=
  { c with cores := SMap.mod c.cores n {} f }

/-- A core of the state. -/
def State.core (s : State) (k n : Nat) : CoreState := (s.cl k).core n

/-- A core of the state changed by `f`. -/
def State.modCore (s : State) (k n : Nat) (f : CoreState → CoreState) : State := s.modCl k (·.modCore n f)

/-- The region that holds cluster `k`, with its number. -/
def State.regionOf? (s : State) (k : Nat) : Option (Nat × Region) :=
  firstSome (fun p => p.2.state != .free && p.2.clusters.contains k) s.regions

/-- Region `r`. -/
def State.region (s : State) (r : Nat) : Region := SMap.getD s.regions r {}

/-- Region `r` changed by `f`. -/
def State.modRegion (s : State) (r : Nat) (f : Region → Region) : State :=
  { s with regions := SMap.mod s.regions r {} f }

/-- The context that owns cluster `k`. -/
def State.ownerOf (s : State) (k : Nat) : Option Nat := (s.regionOf? k).map (·.2.owner)

/-- The borders of the cluster behave as those of a closed region (R185, R205). -/
def ClusterState.isShut (c : ClusterState) : Bool := c.isClosed || c.frozen

/-- Every cluster of a list changed by `f`. -/
def State.modCls (s : State) (ks : List Nat) (f : ClusterState → ClusterState) : State :=
  forEach ks s fun s k => s.modCl k f

/-! ### Core exceptions (R105) and fabric records (R179) -/

/-- Whether CORE_EXC or FAB_EXC takes record `w`: it holds none, or holds one of this very cycle that comes after `w` in the
order of kind, row and column (R105, R179). -/
def State.takesRecord (s : State) (n off w : Nat) : Bool :=
  !bitAt (s.reg n off) 31
    || (SMap.getD (s.page n).recorded off 0 == s.clock + 1 && decide (field w 30 18 < field (s.reg n off) 30 18))

/-- The first-record rule of CORE_EXC and FAB_EXC: the register keeps a record that it holds (R105, R179). -/
def State.firstRecord (s : State) (n off w : Nat) : State :=
  if s.takesRecord n off w then
    (s.setReg n off w).modPage n fun g => { g with recorded := SMap.put g.recorded off (s.clock + 1) }
  else s

/-- A core exception: CORE_EXC, event 12 and its counter 31 + kind (R105). -/
def State.coreExc (s : State) (k n kind q : Nat) : State :=
  let w := 2 ^ 31 + kind <<< 28 + (n / 32) <<< 23 + (n % 32) <<< 18 + (s.cl k).activeFold <<< 15 + q <<< 12
  ((s.firstRecord (pgClCtrl k) 0x300 w).pulse (pgClCtrl k) 12).count (pgClCtrl k) (31 + kind) 1

/-- A token discarded at a closed pair or at a border (R177, R179, R205): counter 46, event 15, FAB_EXC, the task's count. -/
def State.lateToken (s : State) (k n kind fold q link phase : Nat) : State :=
  let w := 2 ^ 31 + kind <<< 28 + (n / 32) <<< 23 + (n % 32) <<< 18 + fold <<< 15 + q <<< 12 + link <<< 10 + phase <<< 6
  (((s.firstRecord (pgClCtrl k) 0x318 w).pulse (pgClCtrl k) 15).count (pgClCtrl k) 46 1).modCl k
    fun c => { c with lateTokens := c.lateTokens + 1 }

/-! ### Row memory (R212, R215) -/

/-- Row `r` of cluster `k`'s row memory; an unlisted row is zero, or undefined after a command's start (R214). -/
def ClusterState.row (c : ClusterState) (k r : Nat) : Row :=
  match SMap.get? c.rows r with
  | some w => w
  | none => match c.rowsFree with
    | none => {}
    | some n => { data := Config.freeRow n k r }

/-- A row is written whole (R212). -/
def ClusterState.setRow (c : ClusterState) (r : Nat) (w : Row) : ClusterState := { c with rows := SMap.put c.rows r w }

/-- Handle `h`. -/
def ClusterState.handle (c : ClusterState) (h : Nat) : Handle := SMap.getD c.handles h {}

def Handle.valid (h : Handle) : Bool := bitAt h.base.toNat 31
def Handle.isRing (h : Handle) : Bool := bitAt h.base.toNat 30
def Handle.remote (h : Handle) : Bool := bitAt h.base.toNat 29
def Handle.length (h : Handle) : Nat := field h.base.toNat 27 14
def Handle.baseRow (h : Handle) : Nat := field h.base.toNat 12 0
def Handle.step (h : Handle) : Nat := field h.note.toNat 31 16
/-- The notified core, queue and fold (R227). -/
def Handle.noteCore (h : Handle) : Nat := 32 * field h.note.toNat 15 11 + field h.note.toNat 10 6
def Handle.noteQueue (h : Handle) : Nat := field h.note.toNat 5 3
def Handle.noteFold (h : Handle) : Nat := field h.note.toNat 2 0
/-- RING_WAIT in beats; 0 means 65,536 (R227). -/
def Handle.ringWait (h : Handle) : Nat := let w := field h.ring.toNat 15 0; if w = 0 then 65536 else w

/-- Whether rows [first, first + n) lie within the handle. -/
def Handle.covers (h : Handle) (first n : Nat) : Bool := h.valid && decide (first + n ≤ h.length)

/-- Byte `b` of a row. -/
def Row.byte (w : Row) (b : Nat) : Byte := BitVec.ofNat 8 (w.data.toNat >>> (8 * b))

/-- A row from its bytes, shorter lists padded with zero (R214), and its poison bits. -/
def rowOf (bytes : List Byte) (poison : Nat) : Row :=
  { data := BitVec.ofNat 4096 (ofBytes (bytes.take 512)), poison := BitVec.ofNat 16 poison }

/-! ### Arrival counters and notifications (R233 to R235) -/

/-- Arrival counter `h` of a cluster. -/
def ClusterState.arrival (c : ClusterState) (h : Nat) : W32 := SMap.getD c.arrivals h 0

/-- Handle `h`'s arrival counter increments; `poison` when the counted row carried a poisoned word (R233, R235). -/
def State.arrive (s : State) (k h : Nat) (poison : Bool) : State :=
  let c := s.cl k
  let n := c.arrival h + 1
  let nt := SMap.getD c.notifiers h {}
  let nt := { nt with poison := nt.poison || poison }
  let hd := c.handle h
  let due := hd.valid && hd.step != 0 && n.toNat % hd.step == 0
  let full := decide (65535 ≤ nt.pending.length)
  let nt' := if due && !full then { nt with pending := nt.pending ++ [(n.toNat, nt.poison)], poison := false } else nt
  let s := s.modCl k fun c =>
    { c with arrivals := SMap.put c.arrivals h n, notifiers := SMap.put c.notifiers h nt', activeBeat := s.beats + 1 }
  if due && full then (s.pulse (pgRowmem k) 6).count (pgRowmem k) 11 1 else s

/-! ### Device memory (R271 to R275, R281) -/

/-- A byte of a canonical memory: an unlisted address reads as zero (log 5). -/
def memRead : List Host.Cell → Nat → Byte
  | [], _ => 0
  | (b, v) :: m, a => if b = a then v else if a < b then 0 else memRead m a

/-- A byte written: addresses stay rising, and a zero is not listed. -/
def memWrite : List Host.Cell → Nat → Byte → List Host.Cell
  | [], a, v => if v = 0 then [] else [(a, v)]
  | (b, w) :: m, a, v =>
    if b = a then (if v = 0 then m else (a, v) :: m)
    else if a < b then (if v = 0 then (b, w) :: m else (a, v) :: (b, w) :: m)
    else (b, w) :: memWrite m a v

/-- Bytes written from address `a` up. -/
def memWriteList (m : List Host.Cell) (a : Nat) : List Byte → List Host.Cell
  | [] => m
  | v :: vs => memWriteList (memWrite m a v) (a + 1) vs

/-- `n` bytes read from address `a` up. -/
def memReadList (m : List Host.Cell) (a n : Nat) : List Byte := (upto n).map fun i => memRead m (a + i)

/-- The canonical form of a memory: addresses rise strictly, none of them is listed with a zero. -/
abbrev memWf (m : List Host.Cell) : Prop := m.Pairwise (fun x y => x.1 < y.1) ∧ ∀ c ∈ m, c.2 ≠ 0

/-- Where a device address leads (R271). -/
inductive Place where
  /-- HBM3E: stack and stack-local address. -/
  | hbm (stack loc : Nat)
  /-- LPDDR5X: package and package-local address. -/
  | lpddr (package loc : Nat)
  | rowWindow (k row byte : Nat)
  | host (offset : Nat)
  | unassigned
deriving DecidableEq, Repr

/-- R271, R273, R274, R281, R231, R282. -/
def placeOf (a : Nat) : Place :=
  if a < 0xD800000000 then
    let d := a / 0x1B00000000
    let o := a % 0x1B00000000
    let c := o >>> 11
    .hbm (3 * d + c % 3) ((c / 3) * 2048 + o % 2048)
  else if 0x10000000000 ≤ a ∧ a < 0x20000000000 then
    let l := a - 0x10000000000
    let c := (l % 2 ^ 39) >>> 11
    .lpddr (8 * (l >>> 39) + c % 8) ((c / 8) * 2048 + l % 2048)
  else if 0x20000000000 ≤ a ∧ a < 0x2D800000000 then
    let g := a - 0x20000000000
    let c := g >>> 11
    .hbm (c % 24) ((c / 24) * 2048 + g % 2048)
  else if 0x40000000000 ≤ a ∧ a < 0x40050000000 then
    let o := a - 0x40000000000
    .rowWindow (o >>> 22) (field o 21 9) (o % 512)
  else if 0x800000000000 ≤ a ∧ a < 0x1000000000000 then .host (a - 0x800000000000)
  else .unassigned

/-- The home-view address of a stack-local byte (R273). -/
def homeOf (stack loc : Nat) : Nat :=
  let d := stack / 3
  let j := loc / 2048
  d * 0x1B00000000 + (3 * j + stack % 3) * 2048 + loc % 2048

/-- The address under which device memory holds a byte: home view for HBM3E, its own for LPDDR5X. -/
def storeAddr (a : Nat) : Option Nat :=
  match placeOf a with
  | .hbm stack loc => some (homeOf stack loc)
  | .lpddr _ _ => some a
  | _ => none

/-- Granule number of a stored address: home granules from 0, LPDDR5X granules from 524,288 (R276). -/
def granuleOf (stored : Nat) : Nat :=
  if stored < 0x10000000000 then stored >>> 21 else 524288 + ((stored - 0x10000000000) >>> 21)

/-- The poison of stored 32 B word `w` (its address over 32). -/
def DeviceMemory.poisoned (m : DeviceMemory) (w : Nat) : Bool := m.poison.contains w

/-- The poison of a stored word set or cleared. -/
def DeviceMemory.setPoison (m : DeviceMemory) (w : Nat) (p : Bool) : DeviceMemory :=
  { m with poison := if p then (if m.poison.contains w then m.poison else w :: m.poison) else listErase m.poison w }

/-- Bytes stored from stored address `a` up. -/
def DeviceMemory.write (m : DeviceMemory) (a : Nat) (bs : List Byte) : DeviceMemory :=
  { m with bytes := memWriteList m.bytes a bs }

/-- Bytes read from stored address `a` up. -/
def DeviceMemory.read (m : DeviceMemory) (a n : Nat) : List Byte := memReadList m.bytes a n

/-- The context's granule check of one byte (R276). -/
def DeviceMemory.granuleOk (m : DeviceMemory) (ctx stored : Nat) (isWrite : Bool) : Bool :=
  let g := (SMap.getD m.granules (granuleOf stored) 0).toNat
  bitAt g 7 && (g % 64 == ctx || (bitAt g 6 && !isWrite))

end Sys2Proof.Machine
end

