-- ==== Sys2Proof/Machine/Clock.lean ====
section
/-! DEFINITION. Pace (R407, R408), the counters and meters that advance with the beats (R403, R405, R416, R515), and the
passing of time. -/
namespace Sys2Proof.Machine

/-! ### Pace (R407, R408) -/

/-- A moving pace in beat `b`. -/
def Glide.at (g : Glide) (b : BitVec 48) : Nat :=
  let d := g.step * (b - g.since).toNat
  if g.start ≤ g.goal then min g.goal (g.start + d) else max g.goal (g.start - d)

/-- The compute die of a cluster (R14). -/
def dieOf (k : Nat) : Nat := k / 40

/-- Ramp pace of a task of peak `peak` in beat S + `i` (R423). -/
def rampPace (peak i : Nat) : Nat := if peak ≤ 200 then 64 else min 64 ((i + 1) * (12800 / peak))

/-- The ramp pace of cluster `k`. -/
def State.rampOf (s : State) (k : Nat) : Nat :=
  match s.regionOf? k with
  | some (_, g) => match g.task with
    | some t => if t.started then rampPace t.peak (s.beat - t.start).toNat else 64
    | none => 64
  | none => 64

/-- The limiter pace of cluster `k`: that of a RUNNING cluster (R424). -/
def State.limiterOf (s : State) (k : Nat) : Nat :=
  match s.regionOf? k with
  | some (_, g) => if g.state == .running then (s.cl k).limiter.at s.beat else 64
  | none => 64

/-- The pace of cluster `k` in the present beat (R408). -/
def State.pace (s : State) (k : Nat) : Nat :=
  let b := s.beat
  let th := fun d => (SMap.getD s.bridle.thermal d {}).at b
  min (min (s.rampOf k) (s.bridle.shed.at b)) (min (min (th (dieOf k)) (th 8)) (s.limiterOf k))

/-- Whether the present round is suppressed for cluster `k` (R407). -/
def State.suppressed (s : State) (k : Nat) : Bool := decide (s.pace k ≤ (s.now / 16) % 256 % 64)

/-- Whether no engine of cluster `k` starts a request or transfer: its task stops, it is frozen, the round is suppressed (R185, R297,
R407). -/
def State.halts (s : State) (k : Nat) : Bool := (s.cl k).stopped || (s.cl k).frozen || s.suppressed k

/-! ### What ends with a beat -/

/-- A shed holds (R410). -/
def Bridle.shedding (b : Bridle) : Bool := b.below48 || b.below44 || b.shedN

/-- A counter of whole mJ advances by `uj` µJ through its residue (R405). -/
def Page.countMilli (g : Page) (c uj : Nat) : Page :=
  let r := SMap.getD g.residues c 0 + uj
  { (g.count c (r / 1000)) with residues := SMap.put g.residues c (r % 1000) }

/-- Pages with page `n` changed. -/
def modPages (ps : SMap Page) (n : Nat) (f : Page → Page) : SMap Page := SMap.mod ps n {} f

/-- Every region's clusters lie within one compute die (R513). -/
def Region.oneDie (g : Region) : Bool :=
  match g.clusters with
  | [] => true
  | k :: ks => ks.all fun j => dieOf j == dieOf k

/-! ### Arbiter and router settings of a task (R213, R223, R378) -/

/-- A wide requester of row memory (R213). -/
def isWideReq (r : Nat) : Bool := decide (r ≤ 4)

/-- Reset value of `ARB_REQ`r (R213, R223). -/
def arbReqReset (r : Nat) : Nat :=
  if r = 0 ∨ r = 2 then 2 ^ 24 + 2 ^ 16 else if r ≤ 4 then 2 ^ 25 + 2 ^ 16 else if r ≤ 14 then 2 ^ 25 else 0

def ttWin (w n : Nat) : Nat := field w (387 + 4 * n) (384 + 4 * n)
def ttRouter (w : Nat) : Nat := field w 447 416
def ttArb (w r : Nat) : Nat := field w (479 + 32 * r) (448 + 32 * r)

/-- The ARB_REQ word that a task's settings leave in the page (R223). -/
def arbSetting (w r : Nat) : Nat :=
  let m := if isWideReq r then field (arbReqReset r) 25 24 else field w 25 24
  m <<< 24 + field w 16 16 <<< 16 + field w 15 0

/-- What the table entry `w` of cluster `k` sets: pages, offsets and words. -/
def taskSettings (k w : Nat) : List (Nat × Nat × Nat) :=
  let win := fun n => if ttWin w n = 0 then 8 else ttWin w n
  [(pgArbiter k, 0x40, win 0), (pgArbiter k, 0x44, win 1), (pgRouter k, 0x40, ttRouter w)]
    ++ (upto 15).map fun r => (pgArbiter k, 0x80 + 4 * r, arbSetting (ttArb w r) r)

/-! ### The end of a beat -/

/-- Whether the settings of the task's clusters are still those that its table names (R513). -/
def State.settingsHeld (s : State) (g : Region) : Bool :=
  match g.task with
  | none => true
  | some t => g.clusters.zipIdx.all fun k =>
      (taskSettings k.1 (t.entries.getD k.2 0).toNat).all fun x => s.reg x.1 x.2.1 x.2.2 == x.2.2

/-- Whether cluster `k` has kept R513 in the beat that ends. -/
def State.keptSeal (s : State) (k : Nat) : Bool :=
  s.pace k == 64 && (s.cl k).brokenBeat != s.beats + 1 && SMap.getD s.mesh.spoke k 0 != s.beats + 1

/-- The counters of a RUNNING region for the beat that ends (R403, R515). -/
def State.regionBeat (s : State) (ps : SMap Page) (g : Region) : SMap Page :=
  if g.state != .running then ps
  else
    let sealed := g.oneDie && s.settingsHeld g && g.clusters.all s.keptSeal
    let busy := g.clusters.foldl (fun n k => n + ((s.cl k).cores.filter fun c => c.2.firedBeat == s.beats + 1).length) 0
    let ps := modPages ps (pgContext g.owner) fun p =>
      ((p.count 7 1).count 4 (1024 * g.clusters.length)).count 5 busy
    g.clusters.foldl (fun ps k => modPages ps (pgClCtrl k) fun p =>
      let p := (p.count (58 + (s.cl k).activeFold) 1).count 67 1
      if sealed then p else p.count 66 1) ps

/-- Power-domain counters of the touched clusters (R429). -/
def State.powerBeat (s : State) (ps : SMap Page) : SMap Page :=
  s.clusters.foldl (fun ps c =>
    if c.2.power == .run || c.2.ranBeat == s.beats + 1 then modPages ps (pgClPower c.1) fun p => (p.count 4 1).count 2 (4 * (64 - s.pace c.1))
    else ps) ps

/-- The metered counters (R413, R416): cluster pairs, stacks, memory-side ports, meshes, I/O dies, CXL, LPDDR5X, trunks. -/
def meterKeys : List Nat :=
  ((upto 320).flatMap fun k => [256 * pgClPower k, 256 * pgClPower k + 1])
  ++ ((upto 8).map fun d => 256 * pgMsd d + 255) ++ ((upto 24).map fun n => 256 * pgHbm n + 255)
  ++ ((upto 2).map fun d => 256 * pgIoDie d + 255) ++ ((upto 6).map fun t => 256 * pgTrunk t + 255)
  ++ ((upto 16).map fun p => 256 * pgLpddr p + 255) ++ [256 * pgCxl + 255]
  ++ ((upto 8).map fun d => 256 * pgMesh d + 255)

/-- Whether a meter is that of a retired cluster, whose pages hold their reset state (R45). -/
def State.meterIdle (s : State) (key : Nat) : Bool :=
  decide (256 * 0x4000 ≤ key) && (s.cl ((key / 256 - 0x4000) / 0x40)).retired

/-- The calibrated reading of a meter in the beat that ends (R416, R417). -/
def State.reading (s : State) (key : Nat) : Nat :=
  if s.meterIdle key then 0 else Config.meter s.beats key * field (s.reg pgBridle 0x48 0x44D10578) 31 16 / 2 ^ 14

/-- The meters after the beat. -/
def State.metersAfter (s : State) : SMap Nat :=
  if s.energy.isEmpty then meterKeys.map fun k => (k, s.reading k)
  else s.energy.map fun e => (e.1, e.2 + s.reading e.1)

/-- The owner of a cluster's meter. -/
def State.meterOwner (s : State) (key : Nat) : Option Nat :=
  let n := key / 256
  if 0x4000 ≤ n then s.ownerOf ((n - 0x4000) / 0x40) else none

/-- What context `x` is charged for the beat, in µJ (R405). -/
def State.chargeOf (s : State) (x : Nat) : Nat :=
  meterKeys.foldl (fun t key =>
    if s.meterOwner key = some x then t + s.reading key
    else
      let m := s.moved.filter fun v => v.1 == key / 256
      let all := m.foldl (fun n v => n + v.2.2) 0
      let own := m.foldl (fun n v => if v.2.1 = x then n + v.2.2 else n) 0
      if own = 0 then t else t + s.reading key * own / all) 0

/-- Contexts that own clusters or moved bytes. -/
def State.charged (s : State) : List Nat :=
  (upto 64).filter fun x => (s.regions.any fun r => r.2.state != .free && r.2.owner == x) || s.moved.any (·.2.1 == x)

/-- The energy accounts after the beat (R405, R416). -/
def State.energyBeat (s : State) (ps : SMap Page) : SMap Page :=
  let total := meterKeys.foldl (fun t k => t + s.reading k) 0
  let ps := s.charged.foldl (fun ps x => modPages ps (pgContext x) (·.countMilli 8 (s.chargeOf x))) ps
  let owned := s.charged.foldl (fun t x => t + s.chargeOf x) 0
  let ps := modPages ps pgModule (·.countMilli 1 (total - owned))
  modPages ps pgBridle fun p => (p.countMilli 8 total).countMilli 9 (Config.meter s.beats (256 * pgBridle + 9))

/-- The pages after the present beat has ended. -/
def State.pagesAfterBeat (s : State) : SMap Page :=
  let ps := s.regions.foldl (fun ps r => s.regionBeat ps r.2) s.pages
  let ps := s.energyBeat (s.powerBeat ps)
  let ps := if s.mt.unsync then modPages ps pgMtime (·.count 5 1) else ps
  if s.bridle.shedding then modPages ps pgBridle (·.count 10 1) else ps

/-- A beat boundary passes: counters, meters and local beats. -/
def State.endBeat (s : State) : State :=
  { s with pages := s.pagesAfterBeat, energy := s.metersAfter, moved := [], beats := s.beats + 1 }

/-- The time of the counter and of the module set. -/
def State.setTime (s : State) (clock counter : Nat) : State :=
  { s with clock := clock, mt := { s.mt with counter := BitVec.ofNat 64 counter } }

/-- `n` beat boundaries pass. -/
def State.passBeats : (n : Nat) → State → State
  | 0, s => s
  | n + 1, s =>
    let c := (s.now / 4096 + 1) * 4096
    State.passBeats n (s.endBeat.setTime (s.clock + (c - s.now)) c)

/-- `d` fabric cycles pass. -/
def State.advance (s : State) (d : Nat) : State :=
  let c := s.now + d
  let t := s.clock + d
  (State.passBeats (c / 4096 - s.now / 4096) s).setTime t c

/-- Local time reaches cycle `c`. -/
def State.reachClock (s : State) (c : Nat) : State := s.advance (c - s.clock)

/-- The cycle at which a limit of `n` units of `u` cycles that an event of cycle `t` started has run: it counts from the unit
boundary that follows the event (R6). -/
def State.limitAt (s : State) (t u n : Nat) : Nat := t + (u - (s.now + (u * s.clock + t) - s.clock) % u) + u * n

/-- The next boundary of `n` cycles of the counter, or this cycle when it is one. -/
def State.reachBoundary (s : State) (n : Nat) : State := s.advance ((n - s.now % n) % n)

/-- Cycles until beat `b` begins; 0 when it lies at or behind the counter (R56). -/
def State.cyclesToBeat (s : State) (b : BitVec 48) : Nat :=
  let d := (b.toNat * 4096 + 2 ^ 60 - s.now % 2 ^ 60) % 2 ^ 60
  if d < 2 ^ 59 then d else 0

/-- Beat `b` is reached. -/
def State.reachBeat (s : State) (b : BitVec 48) : State := s.advance (s.cyclesToBeat b)

/-! ### Marks that the beat's end reads -/

/-- Bytes counted and charged to a context where they are served (R404). -/
def State.charge (s : State) (page ctx counter bytes : Nat) : State :=
  let s := { s with moved := (page, ctx, bytes) :: s.moved }
  s.count (pgContext ctx) counter bytes

/-- Cluster `k` did something that R184 calls activity. -/
def State.active (s : State) (k : Nat) : State := s.modCl k fun c => { c with activeBeat := s.beats + 1 }

/-- Cluster `k` broke R513 in this beat. -/
def State.unseal (s : State) (k : Nat) : State := s.modCl k fun c => { c with brokenBeat := s.beats + 1 }

/-- Cluster `k` is in RUN while a condition of R414 holds, else IDLE; OFF stays OFF. -/
def State.settlePower (s : State) (k : Nat) : State :=
  let run := match s.regionOf? k with
    | some (_, g) => g.state == .running || g.state == .draining || (g.clearing.isSome && g.task.isNone && g.load.isNone)
    | none => false
  s.modCl k fun c =>
    if c.power = .off then c
    else if run || c.raised then { c with power := .run }
    else { c with power := .idle, ranBeat := if c.power = .run ∧ s.now % 4096 ≠ 0 then s.beats + 1 else c.ranBeat }

/-- The power state of a list of clusters settled. -/
def State.settleAll (s : State) (ks : List Nat) : State := ks.foldl (fun s k => s.settlePower k) s

/-! ### Early ends (R296) -/

/-- The rank of a status among events of one beat: a forced release (R376), uncontained errors, then the order of R296. -/
def statusRank (status : Nat) : Nat :=
  if status = 0xD then 0 else if status = 8 then 2 else if status = 7 then 3 else if status = 9 then 4
  else if status = 0xA then 5 else 1

/-- Whether ending `e` goes before ending `d` of the same beat (R296), where two units of one engine report: the lower number. -/
def endsBefore (e d : Ending) : Bool :=
  let place := fun (x : Ending) => (x.cluster * 16 + x.engine) * 64 + x.part
  decide (statusRank e.status < statusRank d.status) || (statusRank e.status == statusRank d.status && decide (place e < place d))

/-- A terminating event in beat `b` (R296). -/
def Task.endWith (t : Task) (b : BitVec 48) (e : Ending) : Task :=
  match t.ending with
  | none => { t with ending := some e, endBeat := b }
  | some d => if t.endBeat == b && !t.stopped && endsBefore e d then { t with ending := some e } else t

/-- A terminating event of cluster `k`'s task, if one runs; the cluster's sequencer dispatches no further record (R297 step 1). -/
def State.endTask (s : State) (k : Nat) (e : Ending) : State :=
  match s.regionOf? k with
  | some (r, g) => match g.task with
    | some t =>
      if t.started then
        (s.modRegion r fun g => { g with task := some (t.endWith s.beat { e with cluster := k }) }).modCl k fun c =>
          { c with work := { c.work with ended := true }, brokenBeat := s.beats + 1 }
      else s
    | none => s
  | none => s

/-- The region of cluster `k` after an uncontained-in-task error (R479, R480): at once where no task runs, else at its end. -/
def State.markFault (s : State) (k : Nat) : State :=
  match s.regionOf? k with
  | some (r, g) =>
    if g.task.any (·.started) then s.modRegion r fun g => { g with task := g.task.map fun t => { t with faulted := true } }
    else if g.state = .loaded ∨ g.state = .reserved then s.modRegion r fun g => { g with state := .faulted }
    else s
  | none => s

/-- An uncontained-in-task error recorded in page `page` ends the task of cluster `k` (R372 UNCONTAINED). -/
def State.uncontained (s : State) (k page code detail engine : Nat) : State :=
  ((s.report page 2 code detail).endTask k { status := 0xC, code := code, engine := engine }).markFault k

/-- A memory fault of an engine of cluster `k` (R285, R295). -/
def State.memoryFault (s : State) (k page engine unit code addr : Nat) : State :=
  ((s.report page 2 code (engine <<< 16 + unit <<< 12 + addr % 4096)).endTask k
    { status := 8, code := code, part := unit, engine := engine, value := addr }).markFault k

end Sys2Proof.Machine
end

