-- ==== Sys2Proof/Machine/Pages.lean ====
section
/-! DEFINITION. Register pages (spec/02): the field table of the registers without a behaviour of their own, custody checks
(R8, R474), counters, events, and the commands of this family. -/
namespace Sys2Proof.Machine

/-- Access codes of R8 for stored fields. -/
inductive Access where
  | rw
  /-- Written by management cores only. -/
  | rwMgmt
  | cw
  /-- A 1 clears the bit. -/
  | w1c
  /-- A 1 clears the whole register (CORE_EXC, FAB_EXC). -/
  | w1cAll
deriving DecidableEq, Repr

/-- A stored field: its bits, access, the lock group it is in (R35), the values that are not reserved (none listed: all), and
the custody action it is (R475; 0 none). -/
structure RegField where
  hi : Nat
  lo : Nat
  acc : Access := .rw
  group : Option Nat := none
  legal : List (Nat × Nat) := []
  action : Nat := 0
deriving DecidableEq, Repr

/-- The fields of a block-specific register that a plain write sets. Registers and fields with a behaviour of their own are
the other commands' (R8). -/
def fieldsOf (b : Block) (off : Nat) : List RegField :=
  match b with
  | .irqc =>
    if 0x40 ≤ off ∧ off < 0x40 + 19 * 0x20 then
      (if off % 0x20 = 0 then [{ hi := 3, lo := 0 }]
       else if off % 0x20 = 4 then [{ hi := 16, lo := 16, acc := .w1c }] else [])
    else []
  | .mtime => if off = 0x40 then [{ hi := 0, lo := 0 }] else []
  | .clCtrl =>
    if off = 0x300 ∨ off = 0x318 then [{ hi := 31, lo := 31, acc := .w1cAll }]
    else if off = 0x31C then [{ hi := 15, lo := 8 }, { hi := 0, lo := 0 }] else []
  | .arbiter =>
    if off = 0x40 ∨ off = 0x44 then [{ hi := 3, lo := 0, legal := [(4, 15)] }]
    else if 0x80 ≤ off ∧ off < 0x80 + 4 * 15 then
      (if isWideReq ((off - 0x80) / 4) then [] else [({ hi := 25, lo := 24, legal := [(1, 3)] } : RegField)])
        ++ [{ hi := 16, lo := 16 }, { hi := 15, lo := 8 }, { hi := 7, lo := 0 }]
    else []
  | .msd => if off = 0x80 then [{ hi := 17, lo := 0, legal := [(0, 55295)] }] else []
  | .ioDie =>
    if off = 0x80 then [{ hi := 17, lo := 0, legal := [(0, 262143)] }]
    else if off = 0x90 then [{ hi := 13, lo := 0 }] else []
  | .reuseCache =>
    if off = 0x44 then [{ hi := 31, lo := 16, legal := [(1, 65535)] }, { hi := 15, lo := 0, legal := [(0, 55295)] }] else []
  | .scrub => if off = 0x40 then [{ hi := 31, lo := 0 }] else []
  | .router => if off = 0x40 then [{ hi := 8, lo := 8 }, { hi := 7, lo := 0 }] else []
  | .cinch => if off = 0x40 then [{ hi := 12, lo := 0, legal := [(0, 8191)] }] else []
  | .cxlAdapter => if off = 0x40 then [{ hi := 19, lo := 0, legal := [(0, 966655)] }] else []
  | .context =>
    if off = 0x40 then
      [{ hi := 30, lo := 30 }, { hi := 7, lo := 4, legal := [(4, 12)] }, { hi := 3, lo := 0, legal := [(4, 12)] }]
    else if off = 0x48 ∨ off = 0x50 ∨ off = 0x58 then [{ hi := 31, lo := 12 }]
    else if off = 0x4C ∨ off = 0x54 ∨ off = 0x5C then [{ hi := 19, lo := 0 }]
    else if off = 0x60 then [{ hi := 25, lo := 0 }]
    else if off = 0xC0 then [{ hi := 12, lo := 8, legal := [(0, 0), (8, 30)] }, { hi := 4, lo := 0, legal := [(8, 30)] }]
    else if off = 0xD4 then [{ hi := 18, lo := 0 }]
    else if off = 0xD8 then [{ hi := 18, lo := 0, legal := [(1, 524287)] }]
    else []
  | .bridle =>
    if off = 0x40 then [{ hi := 31, lo := 16 }, { hi := 15, lo := 0 }]
    else if off = 0x48 then [{ hi := 31, lo := 16, acc := .rwMgmt }, { hi := 15, lo := 0, acc := .rwMgmt }]
    else if 0x50 ≤ off ∧ off < 0x70 then [{ hi := 15, lo := 0, acc := .rwMgmt }]
    else if off = 0x88 then
      [{ hi := 16, lo := 16, acc := .cw, action := 6 }, { hi := 13, lo := 8, acc := .cw, action := 6 },
       { hi := 5, lo := 0, acc := .cw, action := 6 }]
    else []
  | .clPower => if off = 0x40 then [{ hi := 3, lo := 0, acc := .rwMgmt }] else []
  | .trunk => if off = 0x40 then [{ hi := 10, lo := 8, legal := [(0, 5), (7, 7)] }] else []
  | .mgmt => if off = 0x100 then [{ hi := 8, lo := 0 }] else []
  | .cd =>
    if 0x100 ≤ off ∧ off < 0x140 then
      [{ hi := 31, lo := 31, acc := .cw, group := some 0, action := 3 },
       { hi := 11, lo := 0, acc := .cw, group := some 0, legal := [(0, 3999)], action := 3 }]
    else []
  | .telemetry => if off = 0x40 then [{ hi := 3, lo := 0 }] else []
  | _ => []

/-- The reset value of a stored register (the chapters' tables). -/
def regReset (b : Block) (off : Nat) : Nat :=
  match b with
  | .mtime => if off = 0x40 then 1 else 0
  | .clCtrl => if off = 0x31C then 1 else 0
  | .arbiter =>
    if off = 0x40 ∨ off = 0x44 then 8
    else if 0x80 ≤ off ∧ off < 0x80 + 4 * 15 then arbReqReset ((off - 0x80) / 4) else 0
  | .scrub => if off = 0x40 then 457000 else 0
  | .router => if off = 0x40 then 2 ^ 8 + 16 else 0
  | .context => if off = 0xC0 then 20 else 0
  | .bridle =>
    if off = 0x40 then 8000 * 2 ^ 16 + 65535
    else if off = 0x44 then 8000 * 2 ^ 16 + 8000
    else if off = 0x48 then 0x44D1 * 2 ^ 16 + 1400
    else if 0x50 ≤ off ∧ off < 0x70 then 1000
    else if off = 0x88 then 32 * 2 ^ 8 + 9
    else 0
  | .clPower => if off = 0x40 then 10 else 0
  | .trunk => if off = 0x40 then 7 * 2 ^ 8 + 0xFF else 0
  | _ => 0

/-- A register's stored word, at its reset value where nothing has written it. -/
def State.regOf (s : State) (n off : Nat) : Nat :=
  s.reg n off ((pageBlock n).elim 0 fun b => regReset b off)

/-- Custody presence in the latest sample (R471). -/
def Custody.present (c : Custody) : Bool := !c.sealOpen && (c.strap || decide (0 < c.window))

/-- The custody log's ring: beyond 16,384 records the oldest is overwritten (R475). -/
def logRing (log : List CustodyRecord) : List CustodyRecord := if 16384 < log.length then log.drop 1 else log

/-- An accepted custody action appends its record (R475). -/
def State.logCustody (s : State) (code req : Nat) : State :=
  let r : CustodyRecord := ⟨code, s.mt.counter, req, Config.custodyDigest s.custody.acts⟩
  let s := { s with custody := { s.custody with log := logRing (s.custody.log ++ [r]), acts := s.custody.acts + 1 } }
  (s.pulse pgCustody 4).count pgCustody 1 1

/-- A fatal error of page `n` (R479, R497, R504): its record, the MGMT page's record, viral and FATAL_N. A module reset follows. -/
def State.fatal (s : State) (n code detail : Nat) : State :=
  let s := (s.report n 3 code detail).report pgMgmt 3 code n
  { s with boot := { s.boot with viral := true, fatalLow := true } }

/-- A refused cw write is recorded in the written page and counted (R474). -/
def State.refuseCw (s : State) (req : Nat) (n off : Nat) : State :=
  let s := s.report n 0 0xC0 (req <<< 12 + (off / 4) <<< 2)
  (s.pulse pgCustody 2).count pgCustody 0 1

/-- Whether `v` is not a reserved encoding of the field (R11). -/
def RegField.isLegal (f : RegField) (v : Nat) : Bool :=
  f.legal.isEmpty || f.legal.any fun p => decide (p.1 ≤ v ∧ v ≤ p.2)

/-- Whether the requester and the page's state let this field take a write (R31, R35, R474). -/
def RegField.open (f : RegField) (req : Req) (lock : BitVec 16) (present : Bool) : Bool :=
  (match f.group with | some g => !lock.toNat.testBit g | none => true)
  && (match f.acc with | .rwMgmt => isMgmtReq req | .cw => present | _ => true)

/-- The register word after a write of `v` (R8, R9, R11, R35, R474); `fresh` where a w1c bit of it was set in this very cycle. -/
def writeFields (fs : List RegField) (req : Req) (lock : BitVec 16) (present fresh : Bool) (old v : Nat) : Nat :=
  forEach fs old fun w f =>
    let x := field v f.hi f.lo
    match f.acc with
    | .w1c => if fresh then w else setField w f.hi f.lo (Nat.bitwise (fun a b => a && !b) (field w f.hi f.lo) x)
    | .w1cAll => if x = 1 ∧ !fresh then 0 else w
    | _ => if f.isLegal x && f.open req lock present then setField w f.hi f.lo x else w

/-- Whether a write would change a cw field of the register that its lock group leaves open (R474). -/
def changesCw (fs : List RegField) (lock : BitVec 16) (old v : Nat) : Bool :=
  fs.any fun f => f.acc == .cw && f.isLegal (field v f.hi f.lo) && field v f.hi f.lo != field old f.hi f.lo
    && (match f.group with | some g => !lock.toNat.testBit g | none => true)

/-- The custody action of the cw fields that a write changes; 0 none (R475). -/
def cwAction (fs : List RegField) (lock : BitVec 16) (old v : Nat) : Nat :=
  forEach fs 0 fun a f =>
    if f.acc == .cw && f.isLegal (field v f.hi f.lo) && field v f.hi f.lo != field old f.hi f.lo
      && (match f.group with | some g => !lock.toNat.testBit g | none => true) then max a f.action else a

/-- Whether a requester reaches a management-plane page itself (R22). -/
def reachesPage (req : Req) (n : Nat) : Bool := !isMgmtPage n || isMgmtReq req

/-- Whether a cluster is retired and `n` is a page of it other than its CL_CTRL, which holds its reset state (R45). -/
def State.isIdlePage (s : State) (n : Nat) : Bool :=
  decide (0x4000 ≤ n ∧ n < 0x9000) && (n - 0x4000) % 0x40 != 0 && (s.cl ((n - 0x4000) / 0x40)).retired

/-- Whether the page answers a requester with more than its identity (R22, R33, R45). -/
def State.answers (s : State) (req : Req) (n : Nat) : Bool :=
  (pageInfo n).isSome && !(s.page n).inReset && reachesPage req n && !s.isIdlePage n

/-- Whether a requester's plane writes a page of its own (R20, R21): a management-plane page is the management cores'; the pages of
the other planes are everyone else's from the boot release on, and the management cores' before it. -/
def State.ownPlane (s : State) (req : Req) (n : Nat) : Bool :=
  isMgmtPage n || (s.boot.phase == .released) != isMgmtReq req

/-- Whether the event and interrupt path of R20 takes a write to page `n`: its event registers and its error record. -/
def State.eventOpen (s : State) (req : Req) (n : Nat) : Bool :=
  s.answers req n && (s.boot.phase == .released || isMgmtReq req)

/-- Whether a write to page `n` reaches it (R20, R21, R22, R33, R45). -/
def State.pageOpen (s : State) (req : Req) (n : Nat) : Bool := s.answers req n && s.ownPlane req n

/-- The cycle 0 of the round that runs (R5). -/
def State.roundStart (s : State) : Nat := s.clock - s.phase

/-- The die and signal that pin `p`'s selections name: the lowest-numbered die's that enables it (R508). -/
def State.probeSel (s : State) (p : Nat) : Option (Nat × Nat) :=
  (firstSome (fun d => (s.regOf (pgCd d) (0x100 + 4 * p)).testBit 31) (upto 8)).map fun d =>
    (d, field (s.regOf (pgCd d) (0x100 + 4 * p)) 11 0)

/-- The selection that pin `p` carries for the whole round (R509). -/
def State.probeNow (s : State) (p : Nat) : Option (Nat × Nat) :=
  if s.probes.round = s.roundStart then s.probes.pins.getD p none else s.probeSel p

/-- The pins keep for the round what they carry, before a selection changes (R509). -/
def State.keepProbes (s : State) : State := { s with probes := ⟨s.roundStart, (upto 16).map s.probeNow⟩ }

/-- Whether a management core writes the IRQC block of its own target (R20's event and interrupt path, R47). -/
def ownBlock (b : Block) (req : Req) (off : Nat) : Bool :=
  b == .irqc && decide (0x40 ≤ off) && (off - 0x40) / 0x20 == req.val

/-- The fields of a register that a requester's write reaches: those that only management cores or custody presence write are
meeting points of R20. -/
def State.fieldsFor (s : State) (req : Req) (n : Nat) (b : Block) (off : Nat) : List RegField :=
  (fieldsOf b off).filter fun f => s.ownPlane req n || f.acc == .rwMgmt || f.acc == .cw || ownBlock b req off

/-- A write to a block-specific register (R8, R33, R474). -/
def State.writeBlockReg (s : State) (req : Req) (n off v : Nat) : State :=
  match pageBlock n with
  | none => s
  | some b =>
    let fs := s.fieldsFor req n b off
    let old := s.regOf n off
    let lock := (s.page n).lock
    let present := s.custody.present
    let held := b == .context && bitAt (s.regOf n 0x40) 31 && (off == 0x40 || (0x48 ≤ off && off ≤ 0x60))
    let w := if held then setField old 30 30 (if off = 0x40 then field v 30 30 else field old 30 30)
             else writeFields fs req lock present (SMap.getD (s.page n).recorded off 0 == s.clock + 1) old v
    let s := if fs.isEmpty || w == old then s else (if b == .cd then s.keepProbes else s).setReg n off w
    if changesCw fs lock old v then
      if present then s.logCustody (cwAction fs lock old v) req.val else s.refuseCw req.val n off
    else s

/-- CONTROL's common fields and block-specific bits written (R30, R31); of another plane's page a management core writes
MGMT_TARGETS alone (R20, R21). -/
def Page.writeControl (g : Page) (req : Req) (own : Bool) (v : W32) : Page :=
  let keep : W32 := if isMgmtReq req then (if own then 0 else 0x79FFFE00#32) else if own then 0x06000000#32 else 0x7FFFFE00#32
  { g with control := (v &&& 0x7FFFFE00#32 &&& ~~~keep) ||| (g.control &&& keep) }

/-- Words of a post window (R61, R229). -/
def Page.writeWindow (g : Page) (req : Req) (i : Nat) (v : W32) : Page :=
  { g with windows := SMap.mod g.windows req.val {} fun w =>
      if i = 0 then { w with w0 := v } else if i = 1 then { w with w1 := v } else { w with w2 := v } }

/-- The offset of a page's post window, words 0 to 2 of four. -/
def windowBase (b : Block) : Option Nat :=
  match b with
  | .clCtrl | .bridle | .trunk => some 0x100
  | .rowmem => some 0x40
  | _ => none

/-- Whether a word of a management-plane page holds cw fields, which R22 lets every requester write (R8). -/
def hasCw (b : Block) (off : Nat) : Bool := (fieldsOf b off).any (·.acc == .cw)

/-- Condition events that the state itself holds: MTIME's island and unsync (R73), ATTEST's identity unavailable (R477). -/
def State.heldLevel (s : State) (n : Nat) : W32 :=
  if n = pgMtime then
    (if s.mt.mode = .island then 4#32 else 0#32) ||| (if s.mt.unsync then 128#32 else 0#32)
  else if n = pgAttest then (if s.ident.ok then 0#32 else 8#32)
  else 0

/-- EVENT_LEVEL of a page, and EVENT_LATCH, which holds every event whose level is 1 (R41, R42). -/
def State.levelRead (s : State) (n : Nat) : W32 := (s.page n).levelRead ||| s.heldLevel n
def State.latchRead (s : State) (n : Nat) : W32 := (s.page n).latch ||| s.levelRead n

/-- The summary the controller sees: a management-plane page's comes from its mirror (R47). -/
def State.summaryOf (s : State) (n : Nat) : Bool :=
  if isMgmtPage n then ((s.page n).mirror.getD 4 0) != 0#32
  else (s.latchRead n &&& (s.page n).enable) != 0#32

/-- A source whose summary has dropped is pending no more: its offer is withdrawn (R46, R48). -/
def State.lapse (s : State) (n : Nat) : State :=
  if s.summaryOf n then s
  else { s with irq := { s.irq with sources := s.irq.sources.map fun x => if x.1 = n then (n, { x.2 with offer := none }) else x } }

/-- A plain register write (R8, R20 to R22, R33). Words and fields with a behaviour of their own are left to their commands. -/
def State.plainWrite (s : State) (req : Req) (n off : Nat) (v : W32) : State :=
  match pageBlock n with
  | none => s
  | some b =>
    if (s.page n).inReset || s.isIdlePage n || !(reachesPage req n || hasCw b off) then s
    else if off = 0x0C then if s.eventOpen req n then s.modPage n (·.writeControl req (s.ownPlane req n) v) else s
    else if off = 0x14 then if s.eventOpen req n then (s.modPage n fun g => { g with enable := v }).lapse n else s
    else match windowBase b with
      | some w => if w ≤ off ∧ off < w + 12 then
                    (if b == .rowmem && !s.ownPlane req n then s else s.modPage n (·.writeWindow req ((off - w) / 4) v))
                  else s.writeBlockReg req n off v.toNat
      | none => s.writeBlockReg req n off v.toNat

/-- Whether an access is assigned and of a right size and alignment (R32). -/
def accessOk (addr size : Nat) : Bool :=
  (pageInfo (addr / 4096)).isSome &&
    (if addr % 4096 < 0x800 then size == 4 && addr % 4 == 0
     else (size == 4 && addr % 4 == 0) || (size == 8 && addr % 8 == 0))

/-- An access that R32 turns away, recorded in BAR_DECODE; DEC_ADDR follows the record. -/
def State.badAccess (s : State) (req : Nat) (addr size : Nat) (isWrite : Bool) : State :=
  if accessOk addr size then s
  else
    let unassigned := (pageInfo (addr / 4096)).isNone
    let detail := req <<< 12 + (addr % 4096 / 4) <<< 2 + ofBool isWrite <<< 1 + ofBool unassigned
    let taken := errTaken (s.page pgBarDecode).err 0
    let s := s.report pgBarDecode 0 0x01 detail
    if taken then s.setReg pgBarDecode 0x40 addr else s

/-- An access to offset `off` of a page that does not answer: recorded where the directory assigns none (R32), else ignored. -/
def State.offPage (s : State) (req : Req) (page : BitVec 16) (off : Nat) (isWrite : Bool) : State :=
  s.badAccess req.val (4096 * page.toNat + off) 4 isWrite

end Sys2Proof.Machine
end

