-- ==== Sys2Proof/Machine/Arbiter.lean ====
section
/-! DEFINITION. Row memory's common arbiter and scoreboard (R212, R213, R216 to R226). Engines hand their bursts to it as they move
rows; its decisions are made cycle by cycle, up to the present one, when something asks for them (log 36). -/
namespace Sys2Proof.Machine

/-- The arbiter of cluster `k` changed. -/
def State.modArb (s : State) (k : Nat) (f : Arbiter → Arbiter) : State := s.modCl k fun c => { c with arb := f c.arb }

/-! ### Settings (R223) -/

/-- Window exponent of a port. -/
def State.winLog (s : State) (k p : Nat) : Nat := field (s.regOf (pgArbiter k) (0x40 + 4 * p)) 3 0

/-- The requester of a key. -/
def arbId (key : Nat) : Nat := min key 14

/-- The settings word of a requester. -/
def State.arbReq (s : State) (k r : Nat) : Nat := s.regOf (pgArbiter k) (0x80 + 4 * r)

/-- Whether a request goes to port `p` (R221). -/
def State.mayUse (s : State) (k key p : Nat) (q : RowRequest) : Bool :=
  match q.only with
  | some o => o == p
  | none => bitAt (s.arbReq k (arbId key)) (24 + p)

/-- A requester's quota on port `p`. -/
def State.quota (s : State) (k r p : Nat) : Nat := if p = 0 then field (s.arbReq k r) 15 8 else field (s.arbReq k r) 7 0

/-- The number of the window of port `p` that holds cycle `t` (R219). -/
def State.windowAt (s : State) (k p t : Nat) : Nat := (s.now + 2 ^ 60 + t - s.clock) % 2 ^ 60 / 2 ^ s.winLog k p

/-- Cycle in which the window after that of cycle `t` begins. -/
def State.nextWindow (s : State) (k p t : Nat) : Nat :=
  let n := 2 ^ s.winLog k p
  t + (n - (s.now + 2 ^ 60 + t - s.clock) % 2 ^ 60 % n)

/-! ### Requests and ranges (R216, R224, R225) -/

/-- Rows of a request. -/
def RowRequest.rows (q : RowRequest) : Nat := q.spans.foldl (fun n x => n + x.2) 0

/-- Whether two lists of runs share a row. -/
def spansMeet (a b : List (Nat × Nat)) : Bool :=
  a.any fun x => b.any fun y => decide (x.1 < y.1 + y.2 ∧ y.1 < x.1 + x.2)

/-- Whether a range is in its table in cycle `t`. -/
def WriteRange.isIn (w : WriteRange) (t : Nat) : Bool := match w.leaves with | some l => decide (t < l) | none => true

/-- Every range of both tables. -/
def Arbiter.ranges (a : Arbiter) : List WriteRange := a.tableW ++ a.tableN

/-- Whether a range that entered before `serial` and is in its table in cycle `t` overlaps the rows (R225). -/
def Arbiter.blocks (a : Arbiter) (spans : List (Nat × Nat)) (serial t : Nat) : Bool :=
  a.ranges.any fun w => decide (w.serial < serial) && w.isIn t && spansMeet w.spans spans

/-- Whether the Stitch combiner's range of a row is already in table N (R224). -/
def Arbiter.isReserved (a : Arbiter) (key : Nat) (q : RowRequest) : Bool :=
  a.tableN.any fun w => w.requester == key && w.spans == q.spans && w.leaves.isNone

/-- Whether the table of a requester has a free entry in cycle `t` (R224). -/
def Arbiter.hasRoom (a : Arbiter) (key t : Nat) : Bool :=
  decide (((if key ≤ 4 then a.tableW else a.tableN).filter (·.isIn t)).length < 16)

/-- A range enters its table and takes the next serial. -/
def Arbiter.enter (a : Arbiter) (key : Nat) (q : RowRequest) : Arbiter :=
  let w : WriteRange := ⟨key, q.spans, none, a.serial⟩
  let a := { a with serial := a.serial + 1 }
  if key ≤ 4 then { a with tableW := a.tableW ++ [w] } else { a with tableN := a.tableN ++ [w] }

/-- A requester's latest burst. -/
def Arbiter.burst (a : Arbiter) (key : Nat) : PastBurst := SMap.getD a.past key {}

/-- First cycle in which a requester can issue burst `q`: it presents one request at a time, the next at the earliest in the cycle of
its last row (R216, R218). -/
def Arbiter.due (a : Arbiter) (key : Nat) (q : RowRequest) : Nat :=
  let b := a.burst key
  max q.ready (max (b.since + q.step) (b.ends + q.gap))

/-- The bursts that can issue in cycle `t`, with their keys. -/
def Arbiter.waiting (a : Arbiter) (t : Nat) : List (Nat × RowRequest) :=
  a.queue.filterMap fun x => match x.2 with
    | q :: _ => if (SMap.get? a.requests x.1).isNone ∧ a.due x.1 q ≤ t then some (x.1, q) else none
    | [] => none

/-- A burst leaves its requester's queue for the scoreboard, held or presented. -/
def Arbiter.request (a : Arbiter) (key t : Nat) (q : RowRequest) (held : Bool) (serial : Nat) : Arbiter :=
  { a with queue := SMap.mod a.queue key [] (·.drop 1), requests := SMap.put a.requests key ⟨q, t, held, serial⟩ }

/-- A write, or a read-for-write, that issues in cycle `t`; without a table entry it waits (R224). -/
def Arbiter.issueWrite (a : Arbiter) (t key : Nat) (q : RowRequest) : Arbiter :=
  if a.isReserved key q && q.write then a.request key t q false a.serial
  else if a.hasRoom key t then (a.enter key q).request key t q (q.readForWrite && a.blocks q.spans a.serial t) a.serial
  else a

/-- What issues in cycle `t`: the writes before the reads (R225). -/
def Arbiter.issue (a : Arbiter) (t : Nat) : Arbiter :=
  let qs := a.waiting t
  let a := qs.foldl (fun a x => if x.2.write || x.2.readForWrite then a.issueWrite t x.1 x.2 else a) a
  qs.foldl (fun a x => if x.2.write || x.2.readForWrite then a
    else a.request x.1 t x.2 (a.blocks x.2.spans a.serial t) a.serial) a

/-- Ranges that left before cycle `t` are forgotten. -/
def Arbiter.retire (a : Arbiter) (t : Nat) : Arbiter :=
  let stays := fun (w : WriteRange) => match w.leaves with | some l => decide (t ≤ l) | none => true
  { a with tableW := a.tableW.filter stays, tableN := a.tableN.filter stays }

/-- Port `p`. -/
def Arbiter.port (a : Arbiter) (p : Nat) : ArbPort := SMap.getD a.ports p {}

/-- Port `p` changed. -/
def Arbiter.modPort (a : Arbiter) (p : Nat) (f : ArbPort → ArbPort) : Arbiter := { a with ports := SMap.mod a.ports p {} f }

/-! ### One cycle of the arbiter (R217 to R223, R225) -/

/-- The units that port `p` has transferred up to cycle `t`, counted (R222). -/
def State.countUnits (s : State) (k p t : Nat) : State :=
  let o := (s.cl k).arb.port p
  match o.owner with
  | none => s
  | some key =>
    let m := min o.ends t
    if m ≤ o.counted then s
    else (s.count (pgArbiter k) (64 * p + 4 * arbId key + 1) (m - o.counted)).modArb k (·.modPort p fun o => { o with counted := m })

/-- Held reads whose last overlapping range has left in an earlier cycle are presented, and their hold cycles counted (R223, R225). -/
def State.releaseHeld (s : State) (k t : Nat) : State :=
  (s.cl k).arb.requests.foldl (fun s x =>
    let a := (s.cl k).arb
    let laps := a.ranges.any fun w => decide (w.serial < x.2.serial) && spansMeet w.spans x.2.req.spans
    if !x.2.held || laps then s
    else (s.count (pgArbiter k) (128 + arbId x.1) (t - x.2.since)).modArb k fun a =>
      { a with requests := SMap.put a.requests x.1 { x.2 with held := false, since := t } }) s

/-- The candidates of port `p` in cycle `t` (R217, R219). -/
def State.candidates (s : State) (k p t : Nat) : List Nat :=
  let a := (s.cl k).arb
  let o := a.port p
  let wins := if o.window = s.windowAt k p t then o.wins else []
  (a.requests.filter fun x =>
    !x.2.held && s.mayUse k x.1 p x.2.req
      && (s.quota k (arbId x.1) p == 0 || decide (SMap.getD wins (arbId x.1) 0 < s.quota k (arbId x.1) p))).map (·.1)

/-- The first of `cs` after `p` in cyclic order 0 to 15. -/
def afterPointer (p : Nat) (cs : List Nat) : Option Nat :=
  firstSome cs.contains ((upto 16).map fun i => (p + 1 + i) % 16)

/-- The winner among candidates: high class first, each class after its pointer; `true` for high (R217). -/
def State.arbWinner (s : State) (k p : Nat) (cs : List Nat) : Option (Nat × Bool) :=
  let o := (s.cl k).arb.port p
  let hi := cs.filter fun key => bitAt (s.arbReq k (arbId key)) 16
  if hi.isEmpty then (afterPointer o.normal cs).map (·, false) else (afterPointer o.high hi).map (·, true)

/-- The wait of a request counted on port `p` (R222). -/
def State.countWait (s : State) (k p r wait : Nat) : State :=
  let c := 64 * p + 4 * r
  (s.count (pgArbiter k) (c + 2) wait).modPage (pgArbiter k) fun g =>
    { g with counters := SMap.put g.counters (c + 3) (BitVec.ofNat 64 (max wait (g.counter (c + 3)).toNat)) }

/-- A requester's range of rows leaves its table in cycle `t` (R224). -/
def Arbiter.leaveAt (a : Arbiter) (key : Nat) (spans : List (Nat × Nat)) (t : Nat) : Arbiter :=
  let f := fun (w : WriteRange) =>
    if w.requester = key ∧ w.leaves.isNone ∧ w.spans = spans then { w with leaves := some t } else w
  { a with tableW := a.tableW.map f, tableN := a.tableN.map f }

/-- Port `p` grants request `x` of `key` in cycle `t` (R217 to R219, R222). -/
def State.grant (s : State) (k p t key : Nat) (x : ArbRequest) (high unmarked : Bool) : State :=
  let r := arbId key
  let ends := t + x.req.rows
  let s := (s.countUnits k p t).countWait k p r (t - x.since)
  let s := if s.mayUse k key (1 - p) x.req then s.countWait k (1 - p) r (t - x.since) else s
  let win := s.windowAt k p t
  (s.count (pgArbiter k) (64 * p + 4 * r) 1).modArb k fun a =>
    let a := if x.req.write then a.leaveAt key x.req.spans (ends + 1) else a
    { (a.modPort p fun o =>
        { owner := some key, start := t, ends := ends, before := if o.ends = t then o.owner else none,
          cut := unmarked && x.req.rows == 64, counted := t,
          high := if high then r else o.high, normal := if high then o.normal else r,
          window := win, wins := SMap.mod (if o.window = win then o.wins else []) r 0 (· + 1) }) with
      requests := SMap.del a.requests key,
      past := SMap.put a.past key { count := (a.burst key).count + 1, since := x.since, ends := ends } }

/-- The 64th unit of an owner that marks no last one ends its burst; what remains competes from here on (R220). -/
def State.cutBurst (s : State) (k p t : Nat) : State :=
  let o := (s.cl k).arb.port p
  match o.owner with
  | none => s
  | some key =>
    if o.cut && o.ends == t then
      ((s.report (pgArbiter k) 0 0x70 (16 * p + arbId key)).count (pgArbiter k) 146 1).modArb k (·.modPort p fun o => { o with cut := false })
    else s

/-- Port `p` decides in cycle `t` where it has no owner or its owner moves its last unit (R217, R218). -/
def State.decidePort (s : State) (k p t : Nat) (unmarked : Bool) : State :=
  if t < ((s.cl k).arb.port p).ends then s
  else
    let s := s.cutBurst k p t
    match s.arbWinner k p (s.candidates k p t) with
    | none => s
    | some (key, high) => match SMap.get? (s.cl k).arb.requests key with
      | none => s
      | some x => s.grant k p t key x high unmarked

/-- Cycle `t` of cluster `k`'s arbiter: what issues, what the scoreboard releases, and the decisions of port 0, then port 1 (R221);
`unmarked` says of a port whether the burst that it grants will not be marked at its end. -/
def State.arbCycle (s : State) (k t : Nat) (unmarked : Nat → Bool) : State :=
  let s := (s.modArb k fun a => (a.retire t).issue t).releaseHeld k t
  (s.decidePort k 0 t (unmarked 0)).decidePort k 1 t (unmarked 1)

/-- The next cycle after `t` in which anything can change at the arbiter. -/
def State.nextArb (s : State) (k t : Nat) : Nat :=
  let a := (s.cl k).arb
  let ends := (upto 2).map fun p => (a.port p).ends
  let leaves := a.ranges.flatMap fun w => match w.leaves with | some l => [l, l + 1] | none => []
  let dues := a.queue.filterMap fun x => match x.2 with | q :: _ => some (a.due x.1 q) | [] => none
  let wins := if a.requests.isEmpty then [] else (upto 2).map fun p => s.nextWindow k p t
  ((ends ++ leaves ++ dues ++ wins).filter fun u => decide (t < u)).foldl (fun m u => if m = 0 then u else min m u) 0

/-- Writes that wait for a table entry in cycle `t`, for `n` cycles (R223). -/
def State.countTables (s : State) (k t n : Nat) : State :=
  let ws := ((s.cl k).arb.waiting t).filter fun x => x.2.write || x.2.readForWrite
  let s := if ws.any (·.1 ≤ 4) then s.count (pgArbiter k) 144 n else s
  if ws.any (4 < ·.1) then s.count (pgArbiter k) 145 n else s

/-- Whether nothing is asked of the arbiter. -/
def Arbiter.isIdle (a : Arbiter) : Bool := a.requests.isEmpty && a.queue.all (·.2.isEmpty)

/-- The cycles before `t` that have passed at the arbiter, from change to change. -/
def State.settleFuel (k t : Nat) : (fuel : Nat) → State → State
  | 0, s => s
  | fuel + 1, s =>
    let a := (s.cl k).arb
    if t ≤ a.now then s
    else if a.isIdle then s.modArb k fun a => { a with now := t }
    else
      let u := a.now
      let s := s.arbCycle k u fun _ => false
      let v := s.nextArb k u
      let v := if v = 0 then t else min v t
      State.settleFuel k t fuel ((s.countTables k u (v - u)).modArb k fun a => { a with now := v })

/-- The arbiter of cluster `k` with every decision before the present cycle made, and its units counted. -/
def State.settleArb (s : State) (k : Nat) : State :=
  let s := State.settleFuel k s.clock 65536 s
  (s.countUnits k 0 (s.clock - 1)).countUnits k 1 (s.clock - 1)

/-- The state as a reader of page `n` finds it: the arbiter's decisions made, where its registers depend on them. -/
def State.settledFor (s : State) (n : Nat) : State :=
  match pageInfo n with
  | some i => if i.block == .arbiter || i.block == .clCtrl then s.settleArb i.inst else s
  | none => s

/-! ### What engines ask for (R213) -/

/-- The largest burst of a requester; of requester 14 that of a fill. -/
def arbBurst (r : Nat) : Nat :=
  match r with
  | 0 => 16 | 1 => 32 | 2 => 64 | 3 => 64 | 4 => 16 | 13 => 1 | 14 => 64 | 15 => 64
  | _ => 4

/-- A run of `n` rows from `first` as bursts of at most `size`. -/
def burstsOf (size first n ready : Nat) (write : Bool) : List RowRequest :=
  (upto ((n + size - 1) / size)).map fun i =>
    { spans := [(first + size * i, min size (n - size * i))], write := write, ready := ready }

/-- Cluster `k`'s requester asks for bursts, in order. -/
def State.askRows (s : State) (k key : Nat) (qs : List RowRequest) : State :=
  if qs.isEmpty then s else s.modArb k fun a => { a with queue := SMap.mod a.queue key [] (· ++ qs) }

/-- Requester `r` moves `n` rows from absolute row `first`, in bursts as large as it may. -/
def State.traffic (s : State) (k r first n : Nat) (write : Bool) : State :=
  s.askRows k r (burstsOf (arbBurst r) first n s.clock write)

/-- The number of the last burst that a requester has asked for, among those granted and to be granted. -/
def Arbiter.ticket (a : Arbiter) (key : Nat) : Nat :=
  (a.burst key).count + ofBool (SMap.get? a.requests key).isSome + (SMap.getD a.queue key []).length

/-- The cycle of the last row of a requester's burst number `n`, once it is granted; of an earlier burst than the latest, 0. -/
def Arbiter.movedAt (a : Arbiter) (key n : Nat) : Option Nat :=
  let b := a.burst key
  if b.count < n then none else some (if b.count = n then b.ends else 0)

/-- Requester `key` asks for one row; rows of one kind that are ready in one cycle join in bursts of up to 4. -/
def State.askRow (s : State) (k key row : Nat) (write : Bool) : State :=
  s.modArb k fun a =>
    let qs := SMap.getD a.queue key []
    match qs.reverse with
    | q :: rest =>
      if q.ready = s.clock ∧ q.write = write ∧ q.spans.length < 4 then
        { a with queue := SMap.put a.queue key (rest.reverse ++ [{ q with spans := q.spans ++ [(row, 1)] }]) }
      else { a with queue := SMap.put a.queue key (qs ++ [{ spans := [(row, 1)], write := write, ready := s.clock }]) }
    | [] => { a with queue := SMap.put a.queue key [{ spans := [(row, 1)], write := write, ready := s.clock }] }

/-- The port-engine hub asks for a slack row (R180). -/
def State.askSlack (s : State) (k row : Nat) (write : Bool) : State := s.askRow k 11 row write

/-- Whether the burst that a port's owner moves is a write: its range leaves its table after its last row. -/
def Arbiter.movesWrite (a : Arbiter) (o : ArbPort) : Bool :=
  a.ranges.any fun w => o.owner == some w.requester && w.leaves == some (o.ends + 1)

/-- The requesters of `ks` drop what they ask for, an owner from the next cycle on (R218); `writes`: their writes too. -/
def State.dropRequests (s : State) (k : Nat) (ks : List Nat) (writes : Bool) : State :=
  let s := s.settleArb k
  let keeps := fun (q : RowRequest) => q.write && !writes
  let s := (upto 2).foldl (fun s p =>
    let o := (s.cl k).arb.port p
    if o.owner.any ks.contains && (writes || !(s.cl k).arb.movesWrite o) && decide (s.clock < o.ends) then
      (s.countUnits k p s.clock).modArb k fun a =>
        { (a.modPort p fun o => { o with owner := none, cut := false, ends := s.clock + 1 }) with
          tableW := a.tableW.map fun w => if w.leaves == some (o.ends + 1) && o.owner == some w.requester then { w with leaves := some (s.clock + 1) } else w
          tableN := a.tableN.map fun w => if w.leaves == some (o.ends + 1) && o.owner == some w.requester then { w with leaves := some (s.clock + 1) } else w }
    else s) s
  s.modArb k fun a =>
    let stays := fun (w : WriteRange) => !(ks.contains w.requester && w.leaves.isNone && writes)
    { a with requests := a.requests.filter (fun x => !ks.contains x.1 || keeps x.2.req)
             queue := a.queue.map fun x => if ks.contains x.1 then (x.1, x.2.filter keeps) else x
             tableW := a.tableW.filter stays, tableN := a.tableN.filter stays }

/-! ### ARBITER_GRANT and SCOREBOARD_RELEASE -/

/-- ARBITER_GRANT (R217): the port's next decision cycle is reached, and what is decided in it is decided. `unmarked`: the engine will
not mark the last unit of the 64 that it wins (R220). -/
def execArbiterGrant (k : Cl) (p : Fin 2) (unmarked : Bool) (s : State) : Res :=
  .next (let k := k.val
         let s := s.settleArb k
         let s := (s.reachClock ((s.cl k).arb.port p.val).ends).settleArb k
         if s.clock < (s.cl k).arb.now then s
         else (s.arbCycle k s.clock fun q => unmarked && q == p.val).modArb k fun a => { a with now := s.clock + 1 })

/-- SCOREBOARD_RELEASE (R225): a held read is presented in the cycle after the last overlapping range leaves. -/
def execScoreboardRelease (k : Cl) (r : Fin 15) (s : State) : Res :=
  .next (let k := k.val
         let s := s.settleArb k
         match SMap.get? (s.cl k).arb.requests r.val with
         | none => s
         | some x =>
           let laps := (s.cl k).arb.ranges.filter fun w => decide (w.serial < x.serial) && spansMeet w.spans x.req.spans
           if !x.held || laps.any (·.leaves.isNone) then s
           else
             let s := (s.reachClock (laps.foldl (fun t w => max t (w.leaves.getD 0 + 1)) 0)).settleArb k
             if s.clock < (s.cl k).arb.now then s
             else (s.arbCycle k s.clock fun _ => false).modArb k fun a => { a with now := s.clock + 1 })

end Sys2Proof.Machine
end

