-- ==== Sys2Proof/Machine/Packets.lean ====
section
/-! DEFINITION. Endpoints (R316), the entry of a packet into the mesh (R308, R310), and answers to requests (R318). -/
namespace Sys2Proof.Machine

/-! ### Endpoints (R316) -/

/-- Unit `u` of cluster `k`. -/
def epCluster (k u : Nat) : BitVec 16 := BitVec.ofNat 16 (k + 512 * u)
/-- Unit `u` of memory-side die `d`. -/
def epMem (d u : Nat) : BitVec 16 := BitVec.ofNat 16 (16384 + d + 8 * u)
/-- Unit `u` of I/O die `d`. -/
def epIo (d u : Nat) : BitVec 16 := BitVec.ofNat 16 (32768 + d + 2 * u)
/-- Note `n` of router `r`. -/
def epNote (r n : Nat) : BitVec 16 := BitVec.ofNat 16 (49152 + r + 512 * n)
/-- The endpoint of dispatch core `t` (R19: eight on each I/O die). -/
def epDispatch (t : Nat) : BitVec 16 := epIo (t / 8) (t % 8)

/-- Kind of an endpoint. -/
def epKind (e : BitVec 16) : Nat := field e.toNat 15 14
/-- Cluster or router of an endpoint of kind 0 or 3. -/
def epNumber (e : BitVec 16) : Nat := field e.toNat 8 0
/-- Unit of a cluster endpoint. -/
def epUnit (e : BitVec 16) : Nat := field e.toNat 12 9
/-- Die of a memory-side endpoint. -/
def epDie (e : BitVec 16) : Nat := field e.toNat 2 0
/-- Unit of a memory-side endpoint. -/
def epMemUnit (e : BitVec 16) : Nat := field e.toNat 6 3
/-- Die of an I/O endpoint. -/
def epIoDie (e : BitVec 16) : Nat := field e.toNat 0 0
/-- Unit of an I/O endpoint. -/
def epIoUnit (e : BitVec 16) : Nat := field e.toNat 7 1
/-- Note of a merge-note endpoint. -/
def epNoteNumber (e : BitVec 16) : Nat := field e.toNat 13 9

/-! ### Fields that follow from the type (R311, R315, R317) -/

/-- The virtual channel of a packet: 0 request, 1 response, 2 Stitch, 3 control. -/
def channelOf (p : Packet) : Nat :=
  let o := p.opcode.toNat
  if o = 0x20 then 2
  else if 0x30 ≤ o then 3
  else if o = 3 ∨ o = 4 ∨ o = 5 ∨ o = 0x11 ∨ o = 0x12 ∨ o = 0x21 then 1 else 0

/-- Data flits of a packet: two words of 32 B in each. -/
def dataFlits (p : Packet) : Nat := (p.data.length + 1) / 2

/-- Flits of a packet with its header and mask. -/
def flitsOf (p : Packet) : Nat := 1 + (if p.mask.isSome then 1 else 0) + dataFlits p

/-! ### Places in the grid (R308, R310) -/

/-- Column `X` of cluster `k`. -/
def gridX (k : Nat) : Nat := 8 * (dieOf k % 4) + k % 8
/-- Row `Y` of cluster `k`. -/
def gridY (k : Nat) : Nat := let y := k % 40 / 8; if dieOf k < 4 then y else 9 - y
/-- The cluster at column `x` and row `y`. -/
def clusterAt (x y : Nat) : Nat :=
  let d := x / 8 + (if y < 5 then 0 else 4)
  40 * d + 8 * (if y < 5 then y else 9 - y) + x % 8

/-- The gateway column `g` of a device address in HBM3E: bits [13:11] of the stack-local address (R310). -/
def gatewayOf (addr : Nat) : Nat :=
  match placeOf addr with
  | .hbm _ loc => field loc 13 11
  | _ => 0

/-- The module's ID (R442). -/
def State.moduleId (s : State) : BitVec 14 := s.boot.straps

/-- The router and input at which a packet enters the mesh: its source's (R308, R331). -/
def entryOf (p : Packet) : Nat × Nat :=
  let e := p.src
  match epKind e with
  | 0 => (epNumber e, 4)
  | 1 => (40 * epDie e + gatewayOf p.addr.toNat, 5)
  | 2 => (320 + epIoDie e, if 21 ≤ epIoUnit e then 2 else 4)
  | _ => (epNumber e, 4)

/-- A router or hub. -/
def State.router (s : State) (r : Nat) : RouterState := SMap.getD s.mesh.routers r {}

/-- A router or hub changed. -/
def State.modRouter (s : State) (r : Nat) (f : RouterState → RouterState) : State :=
  { s with mesh := { s.mesh with routers := SMap.mod s.mesh.routers r {} f } }

/-- Fabric cycles from an entry port to the router (R309): from a memory-side die, through a hub, or from a local port. -/
def entryLatency (r input : Nat) : Nat := if 320 ≤ r ∨ input = 5 then 16 else 1

/-- Flits that an output or a port's input passes in a cycle: a gateway's memory-side port four (R15, R309). -/
def flitsPerCycle (r port : Nat) : Nat := if r < 320 ∧ port = 5 then 4 else 1

/-- The number of a packet's channel–class pair. -/
def pairOf (p : Packet) : Nat := 2 * channelOf p + ofBool p.prio

/-- Flits that a buffer holds: by channel and whether the link crosses a seam (R311). -/
def bufferSize (channel : Nat) (seam : Bool) : Nat :=
  if channel = 3 then (if seam then 16 else 4) else if seam then 64 else 8

/-- Flits in a list of held packets at an input's buffer for a pair. -/
def flitsIn (hs : List HeldPacket) (input pair : Nat) : Nat :=
  hs.foldl (fun n h => if h.input = input ∧ !h.stored ∧ pairOf h.packet = pair then n + h.flits.length else n) 0

/-- Packets at a port of router `r` enter its input's buffer in cycle `t`, as far as there is room for them (R311): `before` are the
packets seen, `slot` the port's next flit slot. -/
def letIn (r input t : Nat) (before : List HeldPacket) (slot : Nat) : List HeldPacket → List HeldPacket × Nat
  | [] => (before, slot)
  | h :: hs =>
    let pair := pairOf h.packet
    let waits := before.any fun b => b.input == input && !b.stored && pairOf b.packet == pair && decide (b.got < flitsOf b.packet)
    let room := bufferSize (channelOf h.packet) false - flitsIn (before ++ h :: hs) input pair
    if h.input ≠ input ∨ h.stored ∨ flitsOf h.packet ≤ h.got ∨ waits ∨ room = 0 then letIn r input t (before ++ [h]) slot hs
    else
      let w := flitsPerCycle r input
      let n := min room (flitsOf h.packet - h.got)
      let first := max slot (w * (max t h.ready + entryLatency r input))
      let h := { h with got := h.got + n, flits := h.flits ++ (upto n).map fun i => (first + i) / w }
      letIn r input t (before ++ [h]) (first + n) hs

/-- Whether an input is a port's, not a link's. -/
def isPort (r input : Nat) : Bool := if 320 ≤ r then input ≤ 5 else decide (4 ≤ input)

/-- What waits at a port of router `r` enters as far as it may. -/
def State.fillPort (s : State) (r input : Nat) : State :=
  if isPort r input then
    s.modRouter r fun x =>
      let y := letIn r input s.clock [] (SMap.getD x.nextIn input 0) x.held
      { x with held := y.1, nextIn := SMap.put x.nextIn input y.2 }
  else s

/-- A packet enters the mesh at a port of router `r`, a flit in each of the port's slots, as its buffer has room. -/
def State.injectAt (s : State) (r input : Nat) (p : Packet) : State :=
  (s.modRouter r fun x => { x with held := x.held ++ [{ packet := p, input := input }] }).fillPort r input

/-- A cluster that sends or receives a request, response or Stitch packet, at endpoint `e`, breaks R513 in this beat. -/
def State.speaks (s : State) (e : BitVec 16) (p : Packet) : State :=
  if epKind e = 0 ∧ channelOf p < 3 then
    { s with mesh := { s.mesh with spoke := SMap.put s.mesh.spoke (epNumber e) (s.beats + 1) } }
  else s

/-- A packet enters the mesh at its source. -/
def State.inject (s : State) (p : Packet) : State := (s.injectAt (entryOf p).1 (entryOf p).2 p).speaks p.src p

/-- A packet leaves its source `d` cycles from now. -/
def State.injectAfter (s : State) (d : Nat) (p : Packet) : State :=
  let (r, input) := entryOf p
  (s.modRouter r fun x => { x with held := x.held ++ [{ packet := p, input := input, ready := s.clock + d }] }).fillPort r input

/-- The delivery of a packet. -/
def State.deliveryOf (s : State) (p : Packet) : Option Delivery := firstSome (·.packet == p) s.mesh.delivered

/-- Whether the packet has reached its endpoint, or does not come through the mesh. -/
def State.hasArrived (s : State) (p : Packet) : Bool :=
  match s.deliveryOf p with
  | some d => decide (d.due ≤ s.clock)
  | none => true

/-- A delivery is taken. -/
def State.takeDelivery (s : State) (d : Delivery) : State :=
  { s with mesh := { s.mesh with delivered := listErase s.mesh.delivered d } }

/-- A packet that the mesh has delivered is taken, once its tail has reached the endpoint (R309). -/
def State.receive (s : State) (p : Packet) : State :=
  match s.deliveryOf p with
  | none => s
  | some d =>
    ((if s.hasArrived p then s else s.reachClock d.due).takeDelivery d).speaks p.dest p

/-- The answer of type `op` to request `p` (R313, R318): to its source, with its transaction number, class and context. -/
def answer (p : Packet) (op status : Nat) : Packet :=
  { opcode := BitVec.ofNat 8 op, prio := p.prio, ctx := p.ctx, dest := p.src, src := p.dest, tag := p.tag, dmod := p.smod,
    smod := p.dmod, addr := p.addr, status := BitVec.ofNat 8 status, rtag := p.rtag }

/-- WRITE_ACK, or ERROR with the status of a fault. -/
def ackOrError (p : Packet) (status : Nat) : Packet := answer p (if status = 0 then 4 else 5) status

/-- READ_DATA with its words, or ERROR. -/
def dataOrError (p : Packet) (status : Nat) (ws : List Word256) : Packet :=
  if status = 0 then
    { answer p 3 0 with
      data := ws.map (·.bits), len := p.len,
      wordPoison := BitVec.ofNat 64 (ws.foldr (fun w n => 2 * n + ofBool w.poison) 0) }
  else answer p 5 status

/-- The data words of a packet with their poison. -/
def wordsOf (p : Packet) : List Word256 := p.data.zipIdx.map fun x => ⟨x.1, p.wordPoison.getLsbD x.2⟩

end Sys2Proof.Machine
end

