-- ==== Sys2Proof/Machine/Operands.lean ====
section
/-! DEFINITION. Operand forms of the cores: the configuration word's fields (R106 to R111), sources (R82, R83), consumption (R87),
counters (R91 to R95), pointers (R99), destinations and their room (R85, R102, R167). -/
namespace Sys2Proof.Machine

/-! ### The configuration word -/

def cwValid (w : Nat) : Bool := bitAt w 63

/-- The word of fold slot `f`, as a number; one with VALID = 0 has no effect (R106). -/
def CoreState.word (c : CoreState) (f : Nat) : Nat :=
  let w := (SMap.getD c.slots f 0).toNat
  if cwValid w then w else 0

def cwGang (w : Nat) : Bool := bitAt w 59
def cwSelMode (w : Nat) : Bool := bitAt w 58
def cwInGroup (w q : Nat) : Bool := bitAt w (50 + q)
def cwOwns (w i : Nat) : Bool := bitAt w (46 + i)
def cwTick (w : Nat) : Nat := field w 45 43
def cwCtEmit (w : Nat) : Nat := field w 42 40
/-- The share of queue `q` (R78). -/
def cwCred (w q : Nat) : Nat := field w (5 * q + 4) (5 * q)
def cwDpeOp (w : Nat) : Nat := field w 127 124
def cwPairing (w : Nat) : Nat := field w 123 120
def cwDpeA (w : Nat) : Nat := field w 117 113
def cwDpeB (w : Nat) : Nat := field w 112 108
def cwAccBase (w : Nat) : Nat := field w 107 104
def cwAccLog (w : Nat) : Nat := field w 103 101
def cwAccLevel (w : Nat) : Nat := field w 100 99
def cwEmit (w : Nat) : Nat := field w 98 96
def cwDpeDest (w : Nat) : Nat := field w 95 86
def cwKeep (w : Nat) : Bool := bitAt w 85
def cwIntSat (w : Nat) : Bool := bitAt w 78
def cwLeOp (w : Nat) : Nat := field w 191 187
def cwLeFmt (w : Nat) : Nat := field w 186 185
def cwHalf (w : Nat) : Bool := bitAt w 184
def cwLeDest (w : Nat) : Nat := field w 168 159
def cwBcast (w : Nat) : Bool := bitAt w 158
def cwCeOp (w : Nat) : Nat := field w 255 252
def cwCtSrc (w : Nat) : Nat := field w 251 247
def cwSrcD (w : Nat) : Nat := field w 246 242
def cwSrcE (w : Nat) : Nat := field w 241 237
def cwPredSel (w : Nat) : Nat := field w 236 234
def cwDestT (w : Nat) : Nat := field w 233 224
def cwDestF (w : Nat) : Nat := field w 223 214
def cwSpan (w : Nat) : Nat := field w 213 206
def cwEndTerm (w i : Nat) : Bool := bitAt w (202 + i)
def cwCloses (w q : Nat) : Bool := bitAt w (194 + q)
/-- The limit of counter `i`; 0 means 2^32 (R91). -/
def cwLimit (w i : Nat) : Nat := let l := field w (287 + 32 * i) (256 + 32 * i); if l = 0 then 2 ^ 32 else l
/-- Pointer P0 or P1. -/
def cwPointer (w p : Nat) : Nat := if p = 0 then field w 447 432 else field w 431 416
def cwCtDest (w : Nat) : Nat := field w 415 406
def cwSlackEn (w : Nat) : Bool := bitAt w 405
def cwSlackQ (w : Nat) : Nat := field w 404 402
def cwSlackHandle (w : Nat) : Nat := field w 401 396
def cwLocalQ (w n : Nat) : Nat := field w (386 + 3 * n) (384 + 3 * n)
def cwRoute (w n : Nat) : Nat := field w (463 + 16 * n) (448 + 16 * n)

/-- Whether route `n` is valid. -/
def rtValid (w n : Nat) : Bool := bitAt (cwRoute w n) 0
/-- Its `IN`: 0 to 3 a link, 4 to 7 an output port. -/
def rtIn (w n : Nat) : Nat := field (cwRoute w n) 8 6
/-- Whether it drives link `d` (0 north, 1 east, 2 south, 3 west). -/
def rtDrives (w n d : Nat) : Bool := bitAt (cwRoute w n) (5 - d)
def rtLocal (w n : Nat) : Bool := bitAt (cwRoute w n) 1
/-- The spacing of its phases. -/
def rtSpacing (w n : Nat) : Nat := 16 / 2 ^ field (cwRoute w n) 11 9
/-- Whether it holds phase `φ` (R111). -/
def rtHolds (w n φ : Nat) : Bool := (φ + 16 - field (cwRoute w n) 15 12) % (max 1 (rtSpacing w n)) == 0

/-- The port's routes: valid routes with `IN` = 4 + `p`, ascending (R167). -/
def portRoutes (w p : Nat) : List Nat := (upto 4).filter fun n => rtValid w n && rtIn w n == 4 + p

/-- The route of a slot with that `IN` and phase. -/
def routeFor (w inp φ : Nat) : Option Nat := firstSome (fun n => rtValid w n && rtIn w n == inp && rtHolds w n φ) (upto 4)

/-- The route of a slot that delivers locally into queue `q`. -/
def routeFeeding (w q : Nat) : Option Nat := firstSome (fun n => rtValid w n && rtLocal w n && cwLocalQ w n == q) (upto 4)

/-! ### Queues -/

/-- Queue `q`. -/
def CoreState.queue (c : CoreState) (q : Nat) : List QueueEntry := SMap.getD c.queues q []

/-- The head of queue `q` in fold `f` that a firing in cycle `t` may read (R78, R79). -/
def CoreState.head (c : CoreState) (q f t : Nat) : Option Token :=
  match firstSome (fun e => e.tok.fold.toNat == f) (c.queue q) with
  | some e => if e.written < t then some e.tok else none
  | none => none

/-- Tokens of fold `f` in queue `q`. -/
def CoreState.held (c : CoreState) (q f : Nat) : Nat := ((c.queue q).filter fun e => e.tok.fold.toNat == f).length

/-- The list without its first entry of fold `f`. -/
def dropFold (f : Nat) : List QueueEntry → List QueueEntry
  | [] => []
  | e :: es => if e.tok.fold.toNat = f then es else e :: dropFold f es

/-- Key of a queue-fold pair or share. -/
def pairKey (q f : Nat) : Nat := 8 * q + f

/-! ### Sources -/

/-- What an operand read: its bits, poison, the heads read, core-store entries read, and the queue a group chose. -/
structure Read where
  bits : Nat := 0
  poison : Bool := false
  heads : List (Nat × Token) := []
  entries : List Nat := []
  group : Option Nat := none
deriving DecidableEq, Repr

/-- The kinds of token an operand takes (R97). -/
inductive Wants where
  | data | ctrl | both
deriving DecidableEq, Repr

/-- Whether a token is of the wanted kind. -/
def Wants.takes (k : Wants) (t : Token) : Bool :=
  match k with
  | .data => !t.ctrl
  | .ctrl => t.ctrl
  | .both => true

/-- The queue that a group source reads (R83). -/
def CoreState.groupQueue (c : CoreState) (f w t : Nat) : Option Nat :=
  let start := if cwSelMode w then SMap.getD c.rot f 7 + 1 else 0
  firstSome (fun q => cwInGroup w q && (c.head q f t).isSome) ((upto 8).map fun i => (start + i) % 8)

/-- Entry `n` of the core store (R99, R104). -/
def CoreState.entry (c : CoreState) (n : Nat) : StoreEntry :=
  match SMap.get? c.store n with
  | some e => e
  | none => match c.storeFree with
    | none => {}
    | some i => { bits := Config.freeStore i n }

/-- Entry `n` as a read of cycle `t` sees it: a write that lands in that cycle is not seen (R89). -/
def CoreState.entrySeen (c : CoreState) (n t : Nat) : StoreEntry :=
  match firstSome (fun o => o.1 == n && o.2.1 == t) c.oldStore with
  | some (_, _, v) => v
  | none => c.entry n

/-- A core-store write of cycle `t` (R89). -/
def CoreState.writeEntry (c : CoreState) (n t : Nat) (v : StoreEntry) : CoreState :=
  { c with store := SMap.put c.store n v
           oldStore := (c.oldStore.filter fun o => o.2.1 == t) ++ [(n, t, c.entry n)] }

/-- Accumulator `n`. -/
def CoreState.accum (c : CoreState) (n : Nat) : AccWord := SMap.getD c.acc n {}

/-- Accumulator `n` as the lane engine reads it in cycle `t`: the last sum complete (R126). -/
def CoreState.accSeen (c : CoreState) (n t : Nat) : AccWord :=
  match firstSome (fun e => e.1 == n && decide (t < e.2.1)) c.sums with
  | some (_, _, v) => v
  | none => c.accum n

/-- The core as the engines of cycle `t` see its counters: before any tick of that cycle. -/
def CoreState.asOf (c : CoreState) (t : Nat) : CoreState :=
  match c.ctrHeld with
  | some (u, m) => if u = t then { c with ctr := m } else c
  | none => c

/-- Counter `i` for a slot (R99: counters outside `CTR_OWN` count as 0). -/
def CoreState.count (c : CoreState) (w i : Nat) : Nat := if cwOwns w i then (SMap.getD c.ctr i 0).toNat else 0

/-- The flattened count of counters C0 to C`level` (R99). -/
def CoreState.flat (c : CoreState) (w level : Nat) : Nat :=
  ((upto (level + 1)).foldl (fun (p : Nat × Nat) i =>
    (p.1 + c.count w i * p.2, p.2 * (if cwOwns w i then cwLimit w i else 1))) (0, 1)).1

/-- The entry that pointer `p` addresses (R99). -/
def CoreState.pointer (c : CoreState) (w p : Nat) : Nat :=
  let x := cwPointer w p
  (field x 15 9 + field x 8 2 * c.flat w (field x 1 0)) % 128

/-- One queue as a source. -/
def CoreState.readQueue (c : CoreState) (q f t : Nat) (k : Wants) : Option Read :=
  match c.head q f t with
  | some tok => if k.takes tok then some { bits := tok.payload.toNat, poison := tok.poison, heads := [(q, tok)] } else none
  | none => none

/-- Core-store entries as a source. -/
def CoreState.readStore (c : CoreState) (a t : Nat) (wide : Bool) : Read :=
  let lo := c.entrySeen a t
  if wide then
    let b := (a + 1) % 128
    let hi := c.entrySeen b t
    { bits := lo.bits.toNat + hi.bits.toNat * 2 ^ 128, poison := lo.poison || hi.poison, entries := [a, b] }
  else { bits := lo.bits.toNat, poison := lo.poison, entries := [a] }

/-- Accumulators as a source (code 0x10). -/
def CoreState.readAcc (c : CoreState) (w t : Nat) : Read :=
  let vs := (upto 4).map fun i => c.accSeen ((cwAccBase w + i) % 16) t
  { bits := (vs.foldr (fun v n => v.bits.toNat + n * 2 ^ 32) 0), poison := vs.any (·.poison) }

/-- An operand read from a source code in cycle `t` of fold `f`; `none` where it is not present (R82, R85). -/
def CoreState.readSrc (c : CoreState) (f w t src : Nat) (wide : Bool) (k : Wants) : Option Read :=
  if src < 8 then c.readQueue src f t k
  else if src < 12 then
    match c.readQueue (2 * (src - 8)) f t k, c.readQueue (2 * (src - 8) + 1) f t k with
    | some lo, some hi =>
      some { bits := lo.bits + hi.bits * 2 ^ 128, poison := lo.poison || hi.poison, heads := lo.heads ++ hi.heads }
    | _, _ => none
  else if src = 12 then
    match c.groupQueue f w t with
    | some q => (c.readQueue q f t k).map fun r => { r with group := some q }
    | none => none
  else if src = 13 ∨ src = 14 then some (c.readStore (c.pointer w (src - 13)) t wide)
  else if src = 16 then some (c.readAcc w t)
  else some {}

/-- Whether a read waits for a pending write (R89): a write fired in an earlier cycle to an entry it reads has not landed, one
that lands in this very cycle apart. -/
def CoreState.hazard (c : CoreState) (t : Nat) (rs : List Read) : Bool :=
  let es := rs.flatMap (·.entries)
  (c.landing ++ c.emissions).any fun l => match l.target with
    | .store e => es.contains e && decide (l.fired < t) && l.due != t
    | _ => false

/-- Core-store reads that the operands need (R88). -/
def storeReads (rs : List Read) : Nat := (rs.filter fun r => !r.entries.isEmpty).length

/-- Read ports of cycle `t` already granted. -/
def CoreState.portsAt (c : CoreState) (t : Nat) : Nat := if c.portsUsed.1 = t then c.portsUsed.2 else 0

/-! ### Counters (R91 to R95) -/

/-- A counter advance: the counters after it, those that moved, those that wrapped, those that wrapped at their limit for want
of an END (R92), and whether the slot is exhausted (R93). -/
structure Advance where
  ctr : SMap W32
  moved : List Nat := []
  wraps : List Nat := []
  overruns : Nat := 0
  exhausted : Bool := false
deriving DecidableEq, Repr

/-- One advance per owned counter while the carry runs (R91, R92). -/
def advanceLevels (w : Nat) (fromEnd : Bool) : List Nat → Advance → Advance
  | [], a => { a with exhausted := true }
  | i :: is, a =>
    let v := (SMap.getD a.ctr i 0).toNat
    let term := cwEndTerm w i && fromEnd
    let full := decide (cwLimit w i ≤ v + 1)
    if term || full then
      advanceLevels w fromEnd is
        { a with ctr := SMap.put a.ctr i 0, moved := a.moved ++ [i], wraps := a.wraps ++ [i],
                 overruns := a.overruns + ofBool (cwEndTerm w i && !fromEnd) }
    else { a with ctr := SMap.put a.ctr i (BitVec.ofNat 32 (v + 1)), moved := a.moved ++ [i] }

/-- The counters that a slot owns, lowest first. -/
def ownedCounters (w : Nat) : List Nat := (upto 4).filter (cwOwns w)

/-- A tick of the slot (R91); a slot that owns no counter has none to advance. -/
def CoreState.tick (c : CoreState) (w : Nat) (fromEnd : Bool) : Advance :=
  match ownedCounters w with
  | [] => { ctr := c.ctr }
  | is => advanceLevels w fromEnd is { ctr := c.ctr }

/-- The control token of an advance (R95), if one is due. -/
def ctrlToken (w : Nat) (before : SMap W32) (a : Advance) (poison : Bool) : Option Token :=
  let v := cwCtEmit w
  let mk := fun value level first last =>
    (⟨controlPayload value level first last a.exhausted, BitVec.ofNat 3 (cwCtDest w % 8), true, a.exhausted, poison, 0⟩ : Token)
  if 1 ≤ v ∧ v ≤ 4 ∧ a.moved.contains (v - 1) then
    let x := (SMap.getD before (v - 1) 0).toNat
    some (mk x (v - 1) (x == 0) (a.wraps.contains (v - 1)))
  else if v = 5 ∧ a.exhausted then some (mk 0 ((ownedCounters w).getLastD 0) true true)
  else none

/-! ### Consumption (R87) -/

/-- An operand with its consumption code and mark key. -/
structure Consumer where
  read : Read
  cons : Nat
  key : Nat
deriving DecidableEq, Repr

/-- Whether the operand's heads are consumed, `wraps` being the counters that wrap in this firing. -/
def Consumer.takes (c : CoreState) (wraps : List Nat) (x : Consumer) : Bool :=
  x.cons == 0 || (decide (1 ≤ x.cons ∧ x.cons ≤ 4) && (c.marks.contains x.key || wraps.contains (x.cons - 1)))

/-- The heads consumed. -/
def takenHeads (c : CoreState) (wraps : List Nat) (xs : List Consumer) : List (Nat × Token) :=
  (xs.filter (Consumer.takes c wraps)).flatMap (·.read.heads)

/-- Consumption, END and the tick settled together: END may wrap a counter, and a wrap may consume a head that carries END. At
most four levels can be added, so six rounds settle (R87, R92). -/
def CoreState.settle (c : CoreState) (w : Nat) (ticks : Bool) (xs : List Consumer) :
    (fuel : Nat) → (fromEnd : Bool) → List (Nat × Token) × Bool × Option Advance
  | 0, fromEnd =>
    let adv := if ticks then some (c.tick w fromEnd) else none
    (takenHeads c ((adv.map (·.wraps)).getD []) xs, fromEnd, adv)
  | n + 1, fromEnd =>
    let adv := if ticks then some (c.tick w fromEnd) else none
    let taken := takenHeads c ((adv.map (·.wraps)).getD []) xs
    let e := taken.any (·.2.endBit)
    if e == fromEnd then (taken, e, adv) else c.settle w ticks xs n e

/-! ### Destinations (R102) -/

def dCode (d : Nat) : Nat := field d 9 6
def dQueue (d : Nat) : Nat := field d 5 3
def dFold (d : Nat) : Nat := d % 8

/-- Tokens of an engine that hold room and have not landed. -/
def CoreState.promised (c : CoreState) : List Landing := c.landing ++ c.emissions

/-- Tokens that hold credit of a route and have not launched: promised, or in the launch buffer (R167). -/
def CoreState.reserved (c : CoreState) (slot route : Nat) : Nat :=
  (c.promised.filter fun l => match l.target with | .port _ s r => s == slot && r == route | _ => false).length
  + ((c.launch.flatMap (·.2)).filter fun e => e.slot == slot && e.route == route).length

/-- The credits of counter `key` that a firing of cycle `t` can use: those that came before it (R171). -/
def CoreState.usable (c : CoreState) (key t : Nat) : Nat :=
  let x := SMap.getD c.credit key {}
  x.count - (if x.last = t + 1 then x.added else 0)

/-- Entries of a launch buffer in use or promised. -/
def CoreState.bufferUse (c : CoreState) (p : Nat) : Nat :=
  (c.promised.filter fun l => match l.target with | .port q _ _ => q == p | _ => false).length
  + (SMap.getD c.launch p []).length

/-- The route that the next token of port `p` in slot `f` takes (R167). -/
def CoreState.turnRoute (c : CoreState) (w f p : Nat) : Option Nat :=
  match portRoutes w p with
  | [] => none
  | r :: rs =>
    match SMap.get? c.portTurn (4 * f + p) with
    | none => some r
    | some last => some ((firstSome (fun n => decide (last < n)) (r :: rs)).getD r)

/-- Free entries of share (`q`, `f`), less those promised (R85). A closed pair takes everything (R81). -/
def CoreState.room (c : CoreState) (q f : Nat) : Bool :=
  if (SMap.get? c.closed (pairKey q f)).isSome then true
  else
    let promised := (c.promised.filter fun l => match l.target with
      | .queue p => p == q && l.tok.fold.toNat == f | _ => false).length
    decide (c.held q f + promised < cwCred (c.word f) q)

/-- Whether the write slot of cycle `t` is free (R88, R101). -/
def CoreState.slotFree (c : CoreState) (t : Nat) : Bool :=
  !(c.promised.any fun l => l.due == t && (match l.target with | .store _ => true | _ => false))

/-- What became of an attempt to send. -/
inductive Sent where
  | ok (c : CoreState)
  /-- No room (R85 conditions 4 and 5). -/
  | noRoom
  /-- The write slot is taken (R88). -/
  | noSlot
deriving DecidableEq, Repr

/-- A landing appended to the results in flight, or to the due emissions. -/
def CoreState.promise (c : CoreState) (emission : Bool) (l : Landing) : CoreState :=
  if emission then { c with emissions := c.emissions ++ [l] } else { c with landing := c.landing ++ [l] }

/-- A token of a firing in cycle `at_` sent to destination `d` (not a store), due in cycle `due`: room is reserved (R85, R167). -/
def CoreState.sendOne (c : CoreState) (d at_ due : Nat) (emission : Bool) (tok : Token) : Sent :=
  let f := dFold d
  let tok := { tok with fold := BitVec.ofNat 3 f }
  if dCode d < 4 then
    let p := dCode d
    match c.turnRoute (c.word f) f p with
    | none => .noRoom
    | some r =>
      if c.usable (4 * f + r) at_ ≤ c.reserved f r ∨ 4 ≤ c.bufferUse p then .noRoom
      else .ok ({ c with portTurn := SMap.put c.portTurn (4 * f + p) r }.promise emission ⟨due, .port p f r, tok, at_⟩)
  else if dCode d = 4 then
    if c.room (dQueue d) f then .ok (c.promise emission ⟨due, .queue (dQueue d), tok, at_⟩) else .noRoom
  else .ok c

/-- Tokens sent one a cycle from cycle `due` to a destination that is no store. -/
def CoreState.sendMany (c : CoreState) (d at_ due : Nat) (emission : Bool) : List Token → Sent
  | [] => .ok c
  | t :: ts => match c.sendOne d at_ due emission t with
    | .ok c => c.sendMany d at_ (due + 1) emission ts
    | r => r

/-- Tokens sent to the store, entry by entry from `a`; `spread` one a cycle (R101), else all in cycle `due`. -/
def CoreState.sendStore (c : CoreState) (a at_ due : Nat) (emission spread : Bool) : List Token → CoreState
  | [] => c
  | t :: ts => (c.promise emission ⟨due, .store (a % 128), t, at_⟩).sendStore (a + 1) at_ (if spread then due + 1 else due) emission spread ts

/-- The tokens of a firing in cycle `at_` sent to destination `d` of slot word `w` (R85, R88, R99, R102). -/
def CoreState.send (c : CoreState) (w d at_ due : Nat) (emission : Bool) (ts : List Token) : Sent :=
  let code := dCode d
  if code = 7 ∨ ts.isEmpty then .ok c
  else if code < 5 then c.sendMany d at_ due emission ts
  else if code < 7 then
    let cycles := if emission then (upto ts.length).map (due + ·) else [due]
    if cycles.all c.slotFree then .ok (c.sendStore (c.pointer w (code - 5)) at_ due emission emission ts) else .noSlot
  else .ok c

end Sys2Proof.Machine
end

