-- ==== Sys2Proof/Machine/Shares.lean ====
section
/-! DEFINITION. Queue shares: delivery of a token (R79 to R81, R180, R209), what a freed entry gives back (R171, R182, R235, R292),
and the closing of a pair (R81, R177). -/
namespace Sys2Proof.Machine

/-- The slack path of fold `f`. -/
def CoreState.path (c : CoreState) (f : Nat) : Slack := SMap.getD c.slack f {}

/-- Whether share (`q`, `f`) has a slack path (R180). -/
def CoreState.hasPath (c : CoreState) (q f : Nat) : Bool :=
  let w := c.word f
  cwValid w && cwSlackEn w && cwSlackQ w == q

/-- A slack path holds no token. -/
def Slack.isEmpty (p : Slack) : Bool := p.write.isEmpty && p.read.isEmpty && p.used == 0

/-- Tokens that a slack path holds. -/
def Slack.tokens (p : Slack) : Nat := p.write.length + p.read.length + 30 * p.used

/-- A token appended to queue `q`, written in cycle `t`; of the arrivals of one cycle the lower rank comes first (R79). -/
def CoreState.append (c : CoreState) (q t : Nat) (tok : Token) (rank : Nat := 0) : CoreState :=
  let after := fun (e : QueueEntry) => e.written == t && decide (rank < e.rank)
  { c with queues := SMap.put c.queues q ((c.queue q).filter (fun e => !after e) ++ [⟨tok, t, rank⟩] ++ (c.queue q).filter after) }

/-- `n` credits become pending at share (`q`, `f`) in cycle `t` (R171). -/
def CoreState.pend (c : CoreState) (q f n t : Nat) : CoreState :=
  { c with pendCredit := SMap.mod c.pendCredit (pairKey q f) {} fun p =>
      { count := p.count + n, ready := if p.count = 0 then max p.ready (t + 1) else p.ready } }

/-- What a slack path gives in one cycle: the oldest token, the path without it, and the credits that its move makes pending
(R180 step 4, R182). -/
def Slack.give (p : Slack) : Option (Token × Slack × Nat) :=
  match p.read, p.write with
  | tok :: rest, _ => some (tok, { p with read := rest }, 0)
  | [], tok :: rest => if 0 < p.used || p.writing.isSome then none else some (tok, { p with write := rest }, 1)
  | [], [] => none

/-- The moves of the slack path of share (`q`, `f`) up to cycle `t`: one in each cycle in which the share has a free entry and the
path a token to give (R180 step 4). A share holds at most 16 tokens. -/
def CoreState.refillTo (q f t : Nat) : (fuel : Nat) → CoreState → CoreState
  | 0, c => c
  | fuel + 1, c =>
    let p := c.path f
    if t < p.next ∨ cwCred (c.word f) q ≤ c.held q f then c
    else match p.give with
      | none => c
      | some (tok, p', n) =>
        let c := { c.append q p.next tok with slack := SMap.put c.slack f { p' with next := p.next + 1 } }
        CoreState.refillTo q f t fuel (if n = 0 then c else c.pend q f n p.next)

/-- From cycle `t` on, the path of fold `f` may move tokens into its queue. -/
def CoreState.wakePath (c : CoreState) (f t : Nat) : CoreState :=
  { c with slack := SMap.mod c.slack f {} fun p => { p with next := max p.next t } }

/-- The slack path of share (`q`, `f`) may move tokens from cycle `t` on, and moves the one of that cycle. -/
def CoreState.refill (c : CoreState) (q f t : Nat) : CoreState := CoreState.refillTo q f t 17 (c.wakePath f t)

/-- The moves of every slack path of the core up to cycle `t`. -/
def CoreState.settleSlack (c : CoreState) (t : Nat) : CoreState :=
  (upto 8).foldl (fun c f => let w := c.word f; if cwSlackEn w then CoreState.refillTo (cwSlackQ w) f t 17 c else c) c

/-- The handle whose notifier feeds a share (R235). -/
def ClusterState.notifierOf (c : ClusterState) (n q f : Nat) : Option Nat :=
  (firstSome (fun h => h.2.valid && h.2.step != 0 && h.2.noteCore == n && h.2.noteQueue == q && h.2.noteFold == f)
    c.handles).map (·.1)

/-- The stream slot whose LOAD_Q feeds a share (R292). -/
def ClusterState.loaderOf (c : ClusterState) (n q f : Nat) : Option Nat :=
  (firstSome (fun x => x.2.share == some (n, q, f)) c.stream.slots).map (·.1)

/-- The credit of one entry of share (`q`, `f`) of core `n`, freed in cycle `t`, goes to what feeds it: a route's circuit, a
notifier, a LOAD_Q. -/
def ClusterState.creditShare (c : ClusterState) (n q f t : Nat) : ClusterState :=
  if (routeFeeding ((c.core n).word f) q).isSome then c.modCore n fun x => x.pend q f 1 t
  else match c.notifierOf n q f with
    | some h => { c with notifiers := SMap.mod c.notifiers h {} fun x => { x with credit := x.credit + 1 } }
    | none => match c.loaderOf n q f with
      | some i => { c with stream := { c.stream with
          slots := SMap.mod c.stream.slots i {} fun x => { x with credit := x.credit + 1 } } }
      | none => c

/-- An entry of share (`q`, `f`) has freed in cycle `t` (R79, R171, R182). -/
def ClusterState.freed (c : ClusterState) (n q f t : Nat) : ClusterState :=
  let x := c.core n
  if x.hasPath q f && !(x.path f).isEmpty then c.modCore n (·.refill q f t) else c.creditShare n q f t

/-- Full shares of a cluster's active fold, as 8 × core + queue (R184, R186). -/
def ClusterState.full (c : ClusterState) : List Nat :=
  let f := c.activeFold
  c.cores.flatMap fun x =>
    let w := x.2.word f
    if cwValid w then (upto 8).filterMap fun q =>
      if 1 ≤ cwCred w q ∧ cwCred w q ≤ x.2.held q f then some (8 * x.1 + q) else none else []

/-- Cluster `k`'s region has come to hold its first full share, in the present beat: the beats before it were not idle (R184). -/
def State.firstFull (before s : State) (k : Nat) : State :=
  let ks := match s.regionOf? k with
    | some (_, g) => g.clusters
    | none => []
  if !(s.cl k).full.isEmpty && ks.all (fun j => (before.cl j).full.isEmpty) then
    s.modCl k fun c => { c with activeBeat := max c.activeBeat s.beats }
  else s

/-- A token arrives at queue `q` of core `n` of cluster `k` now, in place `rank` of its cycle (R79, R80, R177, R180, R209). -/
def State.deliver (s : State) (k n q : Nat) (tok : Token) (rank : Nat := 0) : State :=
  let s := s.modCore k n (·.settleSlack s.clock)
  let c := s.core k n
  let f := tok.fold.toNat
  let w := c.word f
  if !cwValid w || cwCred w q == 0 then (s.coreExc k n 2 q).modCl k (·.creditShare n q f s.clock)
  else match SMap.get? c.closed (pairKey q f) with
    | some kind => (s.lateToken k n kind f q 0 0).modCl k (·.creditShare n q f s.clock)
    | none =>
      let full := decide (cwCred w q ≤ c.held q f)
      let path := c.hasPath q f && (full || !(c.path f).isEmpty)
      if path && decide ((c.path f).write.length < 30) then
        s.modCore k n fun c => { c with slack := SMap.mod c.slack f {} fun p =>
          { p with write := p.write ++ [tok], next := max p.next (s.clock + 1) } }
      else if full || path then (s.pulse (pgClCtrl k) 18).count (pgClCtrl k) 54 1
      else s.firstFull (s.modCore k n (·.append q s.clock tok rank)) k

/-- The tokens of fold `f` taken out of queue `q` and of its slack path; and how many there were. -/
def CoreState.emptyShare (c : CoreState) (q f : Nat) : CoreState × Nat :=
  let n := c.held q f + (if c.hasPath q f then (c.path f).tokens else 0)
  ({ c with queues := SMap.put c.queues q ((c.queue q).filter fun e => e.tok.fold.toNat != f),
            slack := if c.hasPath q f then SMap.del c.slack f else c.slack }, n)

/-- Pair (`q`, `f`) of core `n` closes with cause `kind`; the tokens it holds are late tokens (R81, R177). -/
def State.closePair (s : State) (k n q f kind : Nat) : State :=
  let (c, lost) := (s.core k n).emptyShare q f
  let s := s.modCore k n fun _ => { c with closed := SMap.put c.closed (pairKey q f) kind }
  (upto lost).foldl (fun s _ => (s.lateToken k n kind f q 0 0).modCl k (·.creditShare n q f s.clock)) s

end Sys2Proof.Machine
end

