-- ==== Sys2Proof/Machine/RowMem.lean ====
section
/-! DEFINITION. Row memory (spec/09): handles, fill and copy, remote access, arrival counters and post rings. -/
namespace Sys2Proof.Machine

/-! ### Handles (R227, R228) -/

/-- Whether cluster `k`'s region is RUNNING. -/
def State.isRunning (s : State) (k : Nat) : Bool :=
  match s.regionOf? k with
  | some (_, g) => g.state == .running
  | none => false

/-- HANDLE_WRITE (R228). -/
def execHandleWrite (req : Req) (k : Cl) (h : Fin 64) (word : Fin 3) (value : W32) (s : State) : Res :=
  .next (let n := pgHandle k.val
         let len := field value.toNat 27 14
         let base := field value.toNat 12 0
         if !s.pageOpen req n then s
         else if s.isRunning k.val then s.count n 0 1
         else if word.val = 0 ∧ (8192 < len ∨ 8192 < base + len) then s.count n 1 1
         else s.modCl k.val fun c => { c with handles := SMap.mod c.handles h.val {} fun x =>
           match word.val with
           | 0 => { x with base := value &&& 0xEFFFDFFF#32 }
           | 1 => { x with note := value }
           | _ => { x with ring := value &&& 0x0000FFFF#32 } })

/-! ### Records of the work list that end (R286, R287) -/

/-- A descriptor of the work list is done: its record, and its signal (R286). -/
def State.finishRecord (s : State) (k : Nat) (d : PendingDesc) : State :=
  let s := if d.poster.isNone then s.modCl k fun c => { c with doneRecords := d.record :: c.doneRecords } else s
  match d.signal with
  | some h => s.arrive k h false
  | none => s

/-- A record or descriptor of list `list` is refused (R287, R296). -/
def State.refuseDesc (s : State) (k engine unit list offset : Nat) : State :=
  s.endTask k { status := 7, engine := engine, part := unit, list := list, value := offset }

/-- Whether a count is reached where a descriptor waits for one (R234). -/
def ClusterState.waitMet (c : ClusterState) (en : Bool) (h count : Nat) : Bool :=
  !en || reachedCount (c.arrival h) (BitVec.ofNat 32 count)

/-! ### Fill and copy (R229, R230) -/

def fcOp (w : Nat) : Nat := field w 127 124
def fcArrive (w : Nat) : Bool := bitAt w 123
def fcDst (w : Nat) : Nat := field w 122 117
def fcDstRow (w : Nat) : Nat := field w 116 104
def fcCount (w : Nat) : Nat := field w 103 90
def fcSrc (w : Nat) : Nat := field w 89 84
def fcSrcRow (w : Nat) : Nat := field w 83 71

/-- Whether a request holds a reserved encoding. -/
def fcReserved (w : Nat) : Bool := !(fcOp w == 1 || fcOp w == 2) || fcCount w == 0 || decide (8192 < fcCount w)

/-- Whether a request's handles, the one it waits on included, and its rows are good (R228). -/
def ClusterState.fcOk (c : ClusterState) (w : Nat) : Bool :=
  (c.handle (fcDst w)).covers (fcDstRow w) (fcCount w) && (!bitAt w 70 || (c.handle (field w 69 64)).valid)
    && (fcOp w != 2 || (c.handle (fcSrc w)).covers (fcSrcRow w) (fcCount w))

/-- FC_POST (R230): a post by a write to FC_POST3. -/
def execFcPost (req : Req) (k : Cl) (w3 : W32) (s : State) : Res :=
  .next (let n := pgRowmem k.val
         if !s.pageOpen req n then s
         else
           let p := SMap.getD (s.page n).windows req.val {}
           let w := p.w0.toNat + 2 ^ 32 * p.w1.toNat + 2 ^ 64 * p.w2.toNat + 2 ^ 96 * w3.toNat
           let full := decide (8 ≤ (s.cl k.val).fillCopy.length)
           let result := if fcReserved w then 2 else if full then 1 else 0
           let s := s.modPage n fun g => { g with windows := SMap.mod g.windows req.val {} fun x => { x with result := result } }
           if result = 0 then
             s.modCl k.val fun c => { c with fillCopy := c.fillCopy ++ [{ bits := BitVec.ofNat 2048 w, poster := some req.val }] }
           else s)

/-- A row counted where the request has ARRIVE. -/
def State.arriveIf (s : State) (k h : Nat) (on poison : Bool) : State := if on then s.arrive k h poison else s

/-- The request at the head of the fill-and-copy queue that may start now. -/
def State.fcHead (s : State) (k op : Nat) : Option (PendingDesc × List PendingDesc) :=
  match (s.cl k).fillCopy with
  | d :: rest =>
    let w := d.bits.toNat
    let c := s.cl k
    if s.halts k then none
    else if fcReserved w || !c.fcOk w then some (d, rest)
    else if fcOp w == op && c.waitMet (bitAt w 70) (field w 69 64) (field w 63 32) then some (d, rest) else none
  | [] => none

/-- A request that fails at its start (R230). -/
def State.fcRefuse (s : State) (k : Nat) (d : PendingDesc) : State :=
  match d.poster with
  | some r =>
    ((s.report (pgRowmem k) 0 0x74 (r <<< 12 + fcOp d.bits.toNat)).pulse (pgRowmem k) 7).count (pgRowmem k) 13 1
  | none => s.refuseDesc k 3 0 0 d.offset

/-- A 32-bit pattern across a row (R229). -/
def patternRow (v : Nat) : Row := { data := BitVec.ofNat 4096 ((upto 128).foldl (fun n i => n + v * 2 ^ (32 * i)) 0) }

/-- The poison of a row. -/
def Row.anyPoison (r : Row) : Bool := r.poison != 0

/-- Rows written to handle `h` from handle row `first`, each counted where `on`. -/
def State.writeRows (s : State) (k h first : Nat) (on : Bool) (rows : List Row) : State :=
  let b := ((s.cl k).handle h).baseRow
  rows.zipIdx.foldl (fun s x => (s.modCl k (·.setRow (b + first + x.2) x.1)).arriveIf k h on x.1.anyPoison) s

/-- Rows written to handle `h` by requester `r` (R213). -/
def State.moveRows (s : State) (k r h first : Nat) (on : Bool) (rows : List Row) : State :=
  (s.traffic k r (((s.cl k).handle h).baseRow + first) rows.length true).writeRows k h first on rows

/-- Rows of handle `h`. -/
def ClusterState.rowsOf (c : ClusterState) (k h first n : Nat) : List Row :=
  (upto n).map fun i => c.row k ((c.handle h).baseRow + first + i)

/-- The bursts of a copy (R230): up to 8 rows read into the latch, where each lands 4 cycles later (R212), then written; from the
last rows down where the destination starts inside the source range. -/
def copyBursts (src dst n ready : Nat) : List RowRequest :=
  let m := (n + 7) / 8
  (upto m).flatMap fun i =>
    let i := if src < dst ∧ dst < src + n then m - 1 - i else i
    let rows := min 8 (n - 8 * i)
    [{ spans := [(src + 8 * i, rows)], ready := ready }, { spans := [(dst + 8 * i, rows)], write := true, ready := ready, gap := 4 }]

/-- What requester 14 asks for on behalf of a request (R213, R230). -/
def State.fcTraffic (s : State) (k op w : Nat) : State :=
  let c := s.cl k
  let dst := (c.handle (fcDst w)).baseRow + fcDstRow w
  if op = 1 then s.traffic k 14 dst (fcCount w) true
  else s.askRows k 14 (copyBursts ((c.handle (fcSrc w)).baseRow + fcSrcRow w) dst (fcCount w) s.clock)

/-- One request of the fill-and-copy engine, run to its end. -/
def State.runFc (s : State) (k op : Nat) : State :=
  match s.fcHead k op with
  | none => s
  | some (d, rest) =>
    let w := d.bits.toNat
    let c := s.cl k
    let s := s.modCl k fun c => { c with fillCopy := rest }
    if fcReserved w || !c.fcOk w then s.fcRefuse k d
    else
      let rows := if op = 1 then List.replicate (fcCount w) (patternRow (field w 31 0))
                  else c.rowsOf k (fcSrc w) (fcSrcRow w) (fcCount w)
      let s := (s.fcTraffic k op w).writeRows k (fcDst w) (fcDstRow w) (fcArrive w) rows
      let s := s.count (pgRowmem k) (if op = 1 then 8 else 9) (fcCount w)
      (s.finishRecord k d).active k

/-- ROW_FILL (R230). -/
def execRowFill (k : Cl) (s : State) : Res := .next (s.runFc k.val 1)

/-- ROW_COPY (R230): as if every source row were read before any destination row is written. -/
def execRowCopy (k : Cl) (s : State) : Res := .next (s.runFc k.val 2)

/-- Row memory of a region's clusters is undefined from here on (R214). -/
def State.loseRows (s : State) (ks : List Nat) : State :=
  let r := s.fresh
  r.2.modCls ks fun c => { c with rows := [], rowsFree := some r.1 }

/-! ### Remote access (R231, R232) -/

/-- The handle in which a remote operation lands: the lowest-numbered valid one with REMOTE = 1 and RING = 0 that contains it. -/
def ClusterState.remoteHandle (c : ClusterState) (row n : Nat) : Option Nat :=
  (firstSome (fun h => h.2.valid && h.2.remote && !h.2.isRing && decide (h.2.baseRow ≤ row ∧ row + n ≤ h.2.baseRow + h.2.length))
    c.handles).map (·.1)

/-- A placed message of a ring that contains rows `row` to `row` + n - 1: ring handle, and the message's place in the list. -/
def ClusterState.ringAt (c : ClusterState) (row n : Nat) : Option (Nat × Nat) :=
  (c.rings.findSome? fun x =>
    let h := c.handle x.1
    if !h.valid || !h.isRing then none
    else (x.2.placed.zipIdx.find? fun m => decide (h.baseRow + m.1.1 ≤ row ∧ row + n ≤ h.baseRow + m.1.1 + m.1.2.1)).map
      fun m => (x.1, m.2))

/-- Rows from the words of a packet. -/
def rowsFromWords (ws : List Word256) : List Row :=
  (upto (ws.length / 16)).map fun i =>
    let r := (ws.drop (16 * i)).take 16
    { data := BitVec.ofNat 4096 (r.foldr (fun w n => n * 2 ^ 256 + w.bits.toNat) 0),
      poison := BitVec.ofNat 16 (r.foldr (fun w n => 2 * n + ofBool w.poison) 0) }

/-- The words of a row. -/
def Row.words (r : Row) : List Word256 :=
  (upto 16).map fun i => ⟨BitVec.ofNat 256 (r.data.toNat >>> (256 * i)), r.poison.getLsbD i⟩

/-- A row with its first 8 bytes replaced by the header of R236. -/
def Row.withHeader (r : Row) (seq kind rows : Nat) : Row :=
  { r with data := BitVec.ofNat 4096 (setField r.data.toNat 63 0 (seq % 2 ^ 32 * 2 ^ 32 + kind * 2 ^ 16 + rows)) }

/-- A message of ring `h` whose placed rows have all landed is counted and headed (R233, R236). -/
def State.completeMessage (s : State) (k h first rows : Nat) : State :=
  let c := s.cl k
  let b := (c.handle h).baseRow + first
  let poison := (upto rows).any fun i => (c.row k (b + i)).anyPoison
  let s := s.arrive k h poison
  s.modCl k fun c => c.setRow b ((c.row k b).withHeader (c.arrival h).toNat 1 rows)

/-- Rows of a placed message land (R319 step 3). -/
def State.landMessage (s : State) (k h m row : Nat) (rows : List Row) : State :=
  let s := rows.zipIdx.foldl (fun s x => s.modCl k (·.setRow (row + x.2) x.1)) s
  match (SMap.getD (s.cl k).rings h {}).placed[m]? with
  | none => s
  | some (first, n, src, got) =>
    let got := got + rows.length
    let f := fun (r : Ring) => { r with placed := if n ≤ got then listDrop r.placed m else listSet r.placed m (first, n, src, got) }
    let s := s.modCl k fun c => { c with rings := SMap.mod c.rings h {} f }
    if n ≤ got then s.completeMessage k h first n else s

/-- A remote operation refused (R232). -/
def State.refuseRemote (s : State) (k : Nat) : State := (s.pulse (pgRowmem k) 3).count (pgRowmem k) 3 1

/-- A remote write of whole rows by context `x`: the state, and the status answered (R232, R233). -/
def State.remoteWriteOp (s : State) (x addr : Nat) (ws : List Word256) (masked : Bool) : State × Nat :=
  match placeOf addr with
  | .rowWindow k row byte =>
    let n := ws.length / 16
    let c := s.cl k
    if byte ≠ 0 ∨ ws.length % 16 ≠ 0 ∨ n = 0 ∨ 4 < n ∨ masked ∨ s.ownerOf k ≠ some x then (s.refuseRemote k, 0x83)
    else
      let rows := rowsFromWords ws
      match c.remoteHandle row n, c.ringAt row n with
      | some h, _ =>
        let s := (s.traffic k 12 row n true).writeRows k h (row - (c.handle h).baseRow) true rows
        (((s.count (pgRowmem k) 2 n).charge (pgRowmem k) x 16 (32 * ws.length)).active k, 0)
      | none, some (h, m) =>
        let s := (s.traffic k 12 row n true).landMessage k h m row rows
        (((s.count (pgRowmem k) 2 n).charge (pgRowmem k) x 16 (32 * ws.length)).active k, 0)
      | none, none => (s.refuseRemote k, 0x83)
  | _ => (s, 0x80)

/-- A remote read of `n` words by context `x` (R232). -/
def State.remoteReadOp (s : State) (x addr n : Nat) : State × Nat × List Word256 :=
  match placeOf addr with
  | .rowWindow k row byte =>
    let rows := n / 16
    let c := s.cl k
    if byte ≠ 0 ∨ n % 16 ≠ 0 ∨ rows = 0 ∨ 4 < rows ∨ s.ownerOf k ≠ some x then (s.refuseRemote k, 0x83, [])
    else match c.remoteHandle row rows with
      | some _ =>
        ((((s.traffic k 12 row rows false).count (pgRowmem k) 2 rows).charge (pgRowmem k) x 16 (32 * n)), 0,
          (upto rows).flatMap fun i => (c.row k (row + i)).words)
      | none => (s.refuseRemote k, 0x83, [])
  | _ => (s, 0x80, [])

/-- REMOTE_WRITE (R232, R318): the answer leaves for the sender. -/
def execRemoteWrite (p : Packet) (s : State) : Res :=
  .next (let s := s.receive p
         let r := s.remoteWriteOp p.ctx.toNat p.addr.toNat (wordsOf p) p.mask.isSome
         r.1.inject (ackOrError p r.2))

/-- REMOTE_READ (R232, R318). -/
def execRemoteRead (p : Packet) (s : State) : Res :=
  .next (let s := s.receive p
         let r := s.remoteReadOp p.ctx.toNat p.addr.toNat p.len.toNat
         r.1.inject (dataOrError p r.2.1 r.2.2))

/-! ### Notifications (R235) -/

/-- NOTIFICATION_SEND (R235): the oldest pending notification of handle `h`, against the share's credit. -/
def execNotificationSend (k : Cl) (h : Fin 64) (s : State) : Res :=
  .next (let k := k.val
         let c := s.cl k
         let hd := c.handle h.val
         let nt := SMap.getD c.notifiers h.val {}
         match nt.pending with
         | [] => s
         | (v, poison) :: rest =>
           if nt.credit = 0 ∨ !hd.valid then s
           else
             let tok : Token := { payload := controlPayload v 0 (nt.sent == 0) false false, ctrl := true,
                                  fold := BitVec.ofNat 3 hd.noteFold, poison := poison }
             let nt' := { nt with pending := rest, credit := nt.credit - 1, sent := nt.sent + 1 }
             let s := s.modCl k fun c => { c with notifiers := SMap.put c.notifiers h.val nt' }
             ((s.count (pgRowmem k) 10 1).deliver k hd.noteCore hd.noteQueue tok).active k)

/-! ### Post rings (R236 to R239, R319) -/

/-- `reserve` of R237 on a ring of `size` rows: the ring after it, the row of the placement, and the row of a skip row with its
rows; `none` where the reservation waits. -/
def Ring.reserve (r : Ring) (size n : Nat) : Option (Ring × Nat × Option (Nat × Nat)) :=
  let r := if r.used = 0 then { r with head := 0, tail := 0 } else r
  if r.tail + n ≤ size ∧ r.used + n ≤ size then
    some ({ r with tail := (r.tail + n) % size, used := r.used + n }, r.tail, none)
  else if size < r.tail + n ∧ r.used + (size - r.tail) + n ≤ size then
    some ({ r with skipAt := r.tail, skipValid := true, used := r.used + (size - r.tail) + n, tail := n % size }, 0,
      some (r.tail, size - r.tail))
  else none

/-- Ring `h` changed. -/
def State.modRing (s : State) (k h : Nat) (f : Ring → Ring) : State :=
  s.modCl k fun c => { c with rings := SMap.mod c.rings h {} f }

/-- The sender's cluster in a source endpoint. -/
def senderOf (p : Packet) : Nat := epNumber p.src

/-- A reservation tried on ring `h`: `some` the state with RING_PLACE on its way when it is placed. -/
def State.tryReserve (s : State) (k h : Nat) (p : Packet) : Option State :=
  let c := s.cl k
  let n := p.rsvRows.toNat
  match (SMap.getD c.rings h {}).reserve (c.handle h).length n with
  | none => none
  | some (r, row, skip) =>
    let s := s.modRing k h fun _ => { r with placed := r.placed ++ [(row, n, senderOf p, 0)] }
    let s := match skip with
      | some (at_, rows) =>
        ((s.traffic k 12 ((c.handle h).baseRow + at_) 1 true).modCl k fun c =>
          c.setRow ((c.handle h).baseRow + at_) (({} : Row).withHeader 0 2 rows)).count (pgRowmem k) 5 1
      | none => s
    some ((s.count (pgRowmem k) 4 1).inject { answer p 0x11 0 with placeRow := BitVec.ofNat 13 row })

/-- A post refused for size (counter 6) or time (counter 7) (R239). -/
def State.refusePost (s : State) (k counter : Nat) (p : Packet) : State :=
  (((s.pulse (pgRowmem k) 4).count (pgRowmem k) counter 1).inject (answer p 5 0x84))

/-- Whether a reservation first presented in cycle `since` is past its ring's RING_WAIT beats (R6, R239). -/
def State.ringLate (s : State) (k h since : Nat) : Bool :=
  decide (s.limitAt since 4096 ((s.cl k).handle h).ringWait ≤ s.clock)

/-- The key by which a reservation presented again is known. -/
def ringKey (p : Packet) (x : BitVec 16 × BitVec 14 × BitVec 10 × Nat) : Bool :=
  x.1 == p.src && x.2.1 == p.smod && x.2.2.1 == p.tag

/-- The reservations waiting on ring `h` tried in order: one past its time is refused (R239), and the first that waits stops the rest
(R237). -/
def State.retryRing (s : State) (k h : Nat) : State :=
  ((s.cl k).ringWaiters.foldl (fun (acc : State × Bool × List RingWaiter) w =>
    if w.handle ≠ h ∨ acc.2.1 then (acc.1, acc.2.1, acc.2.2 ++ [w])
    else if acc.1.ringLate k h w.since then (acc.1.refusePost k 7 w.packet, false, acc.2.2)
    else match acc.1.tryReserve k h w.packet with
      | some s' => (s', false, acc.2.2)
      | none => (acc.1, true, acc.2.2 ++ [w])) (s, false, [])
    |> fun acc => acc.1.modCl k fun c => { c with ringWaiters := acc.2.2 })

/-- The ring handle whose row 0 an address names. -/
def ClusterState.ringHandle (c : ClusterState) (row : Nat) : Option Nat :=
  (firstSome (fun h => h.2.valid && h.2.isRing && h.2.baseRow == row) c.handles).map (·.1)

/-- RING_RESERVE (R237, R239, R319). -/
def execRingReserve (p : Packet) (s : State) : Res :=
  .next (let s := s.receive p
         match placeOf p.addr.toNat with
         | .rowWindow k row byte =>
           let c := s.cl k
           match c.ringHandle row with
           | some h =>
             if byte ≠ 0 ∨ s.ownerOf k ≠ some p.ctx.toNat then (s.refuseRemote k).inject (answer p 5 0x83)
             else if p.rsvRows = 0 ∨ (c.handle h).length < p.rsvRows.toNat then s.refusePost k 6 p
             else
               let since := (((c.ringSeen.find? (ringKey p)).map (·.2.2.2)).getD s.clock)
               let s := s.modCl k fun c => { c with ringSeen := c.ringSeen.filter fun x => !ringKey p x }
               let waits := c.ringWaiters.any (·.handle == h)
               if s.ringLate k h since then s.refusePost k 7 p else
               match (if waits then none else s.tryReserve k h p) with
               | some s' => s'
               | none =>
                 if 16 ≤ c.ringWaiters.length then
                   (s.modCl k fun c => { c with ringSeen := (p.src, p.smod, p.tag, since) :: c.ringSeen }).inject (answer p 0x12 0)
                 else s.modCl k fun c => { c with ringWaiters := c.ringWaiters ++ [⟨h, p, since⟩] }
           | none => (s.refuseRemote k).inject (answer p 5 0x83)
         | _ => s.inject (answer p 5 0x80))

/-- The release of `m` rows (R238): the ring after it, or `none` where it is refused. -/
def Ring.release (r : Ring) (size m : Nat) : Option Ring :=
  if (r.skipValid && decide (r.skipAt - r.head < m)) || (!r.skipValid && decide (r.used < m)) then none
  else
    let r := { r with head := (r.head + m) % max 1 size, used := r.used - m }
    some (if r.skipValid && r.head == r.skipAt then
      { r with head := 0, used := r.used - (size - r.skipAt), skipValid := false } else r)

/-- A release of ring `h` by its consumer. -/
def State.releaseRing (s : State) (k h m : Nat) : State :=
  let c := s.cl k
  match (SMap.getD c.rings h {}).release (c.handle h).length m with
  | none => (s.count (pgRowmem k) 12 1).pulse (pgRowmem k) 5
  | some r => (s.modRing k h fun _ => r).retryRing k h

/-- RING_RELEASE (R238). -/
def execRingRelease (req : Req) (k : Cl) (h : Fin 64) (rows : BitVec 14) (s : State) : Res :=
  .next (if s.pageOpen req (pgHandle k.val) then s.releaseRing k.val h.val rows.toNat else s)

/-- The reservation on ring `h` that was presented first. -/
def ClusterState.oldestWaiter (c : ClusterState) (h : Nat) : Option RingWaiter :=
  (c.ringWaiters.filter (·.handle == h)).foldl (fun best w => match best with
    | some b => if w.since < b.since then some w else some b
    | none => some w) none

/-- RING_WAIT_TIMEOUT (R239): the oldest reservation on ring `h` has waited RING_WAIT beats (R6). -/
def execRingWaitTimeout (k : Cl) (h : Fin 64) (s : State) : Res :=
  .next (let k := k.val
         match (s.cl k).oldestWaiter h.val with
         | none => s
         | some w =>
           let s := s.reachClock (s.limitAt w.since 4096 ((s.cl k).handle h.val).ringWait)
           let s := s.modCl k fun c => { c with ringWaiters := listErase c.ringWaiters w }
           (s.refusePost k 7 w.packet).retryRing k h.val)

/-- RING_RETRY (R319): the sender presents the reservation again at the next beat boundary. -/
def execRingRetry (p : Packet) (s : State) : Res :=
  .next (let k := epNumber p.dest
         let s := s.receive p
         match (s.cl k).stream.slots.findSome? fun x => x.2.post.bind fun q => if q.tag = p.tag then some q else none with
         | some q => s.modCl k fun c => { c with retries := c.retries ++ [(q, s.beats + 1)] }
         | none => s)

end Sys2Proof.Machine
end

