-- ==== Sys2Proof/Machine/Memory.lean ====
section
/-! DEFINITION. Device memory and host memory (spec/11): the reuse cache, memory requests and their checks (R271 to R285), their
charge to contexts (R404), and the commands READ, WRITE, granules, probes and scrubbers. -/
namespace Sys2Proof.Machine

/-! ### The reuse cache (R278, R279) -/

/-- The set of a line. -/
def rcSetOf (stack line : Nat) : Nat := Config.rcSet stack line % 24576

/-- The sectors of line `line` that bytes [lo, hi) of the stack touch. -/
def sectorMask (line lo hi : Nat) : BitVec 8 :=
  BitVec.ofNat 8 ((upto 8).foldl (fun m i =>
    let b := 512 * line + 64 * i
    if lo < b + 64 ∧ b < hi then m + 2 ^ i else m) 0)

/-- Whether two lines are one. -/
def CacheLine.isLine (c : CacheLine) (stack line : Nat) : Bool := c.stack == stack && c.line == line

/-- The last element of a list that satisfies `p`. -/
def lastSome {α : Type} (p : α → Bool) (xs : List α) : Option α := firstSome p xs.reverse

/-- The line that an allocation into a set replaces: `keep` a keep allocation (R279). -/
def victimOf (set : List CacheLine) (keep : Bool) : Option CacheLine :=
  if keep && decide (12 ≤ (set.filter (·.keep)).length) then lastSome (·.keep) set
  else if set.length < 16 then none
  else if keep then set.getLast? else lastSome (fun c => !c.keep) set

/-- What a look-up of one line leaves. -/
structure Touch where
  lines : List CacheLine
  hit : Bool
  writtenBack : Bool
  keepRefused : Bool
  /-- Sectors that were present. -/
  present : BitVec 8
deriving DecidableEq, Repr

/-- A request touches sectors `m` of a line under a hint (R278, R279). -/
def touchLine (ls : List CacheLine) (stack line : Nat) (m : BitVec 8) (isWrite : Bool) (hint : Nat) : Touch :=
  let set := ls.filter fun c => rcSetOf c.stack c.line == rcSetOf stack line
  let full := decide (12 ≤ (set.filter (·.keep)).length)
  match firstSome (·.isLine stack line) ls with
  | some c =>
    let hit := isWrite || c.sectors &&& m == m
    let refused := hint == 1 && !c.keep && full
    let d := { c with sectors := c.sectors ||| m, dirty := if isWrite then c.dirty ||| m else c.dirty,
                      keep := c.keep || (hint == 1 && !full) }
    if hint = 2 then
      ⟨if isWrite then ls.map fun x => if x.isLine stack line then d else x else ls, hit, false, false, c.sectors⟩
    else ⟨d :: listErase ls c, hit, false, refused, c.sectors⟩
  | none =>
    if hint = 2 then ⟨ls, false, false, false, 0⟩
    else
      let v := victimOf set (hint == 1)
      let ls := match v with
        | some x => listErase ls x
        | none => ls
      ⟨⟨stack, line, m, if isWrite then m else 0, hint == 1⟩ :: ls, false, v.any fun x => x.dirty != 0, hint == 1 && full, 0⟩

/-- Words of a request at stack-local `loc` that lie in sectors present in line `line`. -/
def wordsPresent (line loc n : Nat) (present : BitVec 8) : Nat :=
  ((upto n).filter fun i => (loc + 32 * i) / 512 == line && present.getLsbD ((loc + 32 * i) % 512 / 64)).length

/-- A request of `n` words at stack-local `loc` looks up the cache of its die; the bytes it was served. -/
def State.lookUp (s : State) (stack loc n hint : Nat) (isWrite : Bool) : State × Nat :=
  let d := stack / 3
  let hi := loc + 32 * n
  let lines := (upto ((hi - 1) / 512 + 1 - loc / 512)).map fun i => loc / 512 + i
  lines.foldl (fun acc line =>
    let s := acc.1
    let t := touchLine (SMap.getD s.mem.cache d []) stack line (sectorMask line loc hi) isWrite hint
    let s := { s with mem := { s.mem with cache := SMap.put s.mem.cache d t.lines } }
    let s := s.count (pgReuse d) (if t.hit then 0 else 1) 1
    let s := if t.writtenBack then s.count (pgReuse d) 2 1 else s
    let s := if t.keepRefused then s.count (pgReuse d) 3 1 else s
    (s, acc.2 + 32 * wordsPresent line loc n t.present)) (s, 0)

/-! ### Words of device memory (R283, R305) -/

/-- The word at stored address `a`. -/
def DeviceMemory.word (m : DeviceMemory) (a : Nat) : Word256 :=
  ⟨BitVec.ofNat 256 (ofBytes (m.read a 32)), m.poisoned (a / 32)⟩

/-- A word merged under a byte mask: a whole clean write clears the syndrome, a poisoned one sets it, a partial clean write
keeps it (R283, R305). -/
def DeviceMemory.putWord (m : DeviceMemory) (a : Nat) (w : Word256) (mask : Nat) : DeviceMemory :=
  let bs := toBytes 32 w.bits.toNat
  if mask % 2 ^ 32 = 2 ^ 32 - 1 then (m.write a bs).setPoison (a / 32) w.poison
  else
    let m' := bs.zipIdx.foldl (fun m x => if bitAt mask x.2 then m.write (a + x.2) [x.1] else m) m
    if w.poison && decide (mask % 2 ^ 32 ≠ 0) then m'.setPoison (a / 32) true else m'

/-- Words written from stored address `a` up. -/
def DeviceMemory.putWords (m : DeviceMemory) (a : Nat) (ws : List Word256) (mask : Option (BitVec 512)) : DeviceMemory :=
  ws.zipIdx.foldl (fun m x =>
    m.putWord (a + 32 * x.2) x.1 (match mask with | some b => field b.toNat (32 * x.2 + 31) (32 * x.2) | none => 2 ^ 32 - 1)) m

/-! ### Checks (R272, R276, R282, R385, R493) -/

/-- The pseudo-channel that serves a stack-local address (R275). -/
def pseudoChannel (loc : Nat) : Nat := loc / 2048 % 32

/-- Pseudo-channels of a stack retired at the last power-on. -/
def Spares.retiredIn (x : Spares) (stack : Nat) : List Nat :=
  (x.channels.filter fun c => c / 32 == stack).map (· % 32)

/-- Whether stack-local chunk `j` is unavailable (R493). -/
def Spares.unavailable (x : Spares) (stack j : Nat) : Bool :=
  match x.retiredIn stack with
  | [] => false
  | [_] => decide (18284544 ≤ j)
  | _ => true

/-- The status of a request of context `x` to HBM3E or LPDDR5X: 0, or the fault it is answered with. -/
def State.memStatus (s : State) (x a : Nat) (isWrite : Bool) : Nat :=
  match placeOf a with
  | .hbm stack loc =>
    if !s.ready.msd.contains (stack / 3) then 0x85
    else if s.spares.unavailable stack (loc / 2048) then 0x80
    else if s.mem.granuleOk x (homeOf stack loc) isWrite then 0 else 0x81
  | .lpddr pkg _ =>
    if s.spares.packages.contains pkg then 0x80
    else if s.mem.granuleOk x a isWrite then 0 else 0x81
  | _ => 0x80

/-! ### Host memory (R282, R359, R360) -/

/-- Host bytes read. -/
def State.hostRead (s : State) (a n : Nat) : List Byte := memReadList s.host.bytes a n

/-- Host bytes written. -/
def State.hostWrite (s : State) (a : Nat) (bs : List Byte) : State :=
  { s with host := { s.host with bytes := memWriteList s.host.bytes a bs } }

/-- A 52-bit base held in two registers of a context's page (R361). -/
def State.ctxBase (s : State) (x off : Nat) : Nat :=
  let lo := s.regOf (pgContext x) off
  let hi := s.regOf (pgContext x) (off + 4)
  field lo 31 12 * 4096 + field hi 19 0 * 2 ^ 32

/-- The translation of host page `p` for context `x`, from the cache or the table (R360): the entry, if one translates. -/
def State.translate (s : State) (x p : Nat) : State × Option Nat :=
  if s.regOf (pgContext x) 0x60 ≤ p then (s, none)
  else match s.host.xlt.find? fun e => e.1 == x && e.2.1 == p with
    | some e => (s, if bitAt e.2.2.toNat 0 then some e.2.2.toNat else none)
    | none =>
      let w := ofBytes (s.hostRead (s.ctxBase x 0x58 + 8 * p) 8)
      let s := s.charge pgCxl x 14 8
      if bitAt w 0 then
        ({ s with host := { s.host with xlt := ((x, p, BitVec.ofNat 64 w) :: s.host.xlt).take 4096 } }, some w)
      else (s, none)

/-- The host physical address of a device address of host memory, or `none` for fault 0x82. -/
def State.hostAddr (s : State) (x a : Nat) (isWrite : Bool) : State × Option Nat :=
  let r := s.translate x (field a 46 21)
  match r.2 with
  | some w => (r.1, if isWrite && !bitAt w 1 then none else some (field w 51 21 * 2 ^ 21 + a % 2 ^ 21))
  | none => (r.1, none)

/-- Bytes as words of 32 B. -/
def wordsOfBytes (bs : List Byte) : List Word256 :=
  (upto ((bs.length + 31) / 32)).map fun i => ⟨BitVec.ofNat 256 (ofBytes ((bs.drop (32 * i)).take 32)), false⟩

/-! ### Requests (R283, R404) -/

/-- A read of `n` words at `a` by context `x`: state, status, words. -/
def State.memReadOp (s : State) (x hint a n : Nat) : State × Nat × List Word256 :=
  let a := a / 32 * 32
  match placeOf a with
  | .hbm stack loc =>
    let st := s.memStatus x a false
    if st ≠ 0 then (s, st, [])
    else
      let ws := (upto n).map fun i => s.mem.word (homeOf stack loc + 32 * i)
      let r := s.lookUp stack loc n hint false
      ((r.1.charge (pgMsd (stack / 3)) x 9 (32 * n)).count (pgContext x) 11 r.2, 0, ws)
  | .lpddr pkg _ =>
    let st := s.memStatus x a false
    if st ≠ 0 then (s, st, [])
    else (s.charge (pgLpddr pkg) x 12 (32 * n), 0, (upto n).map fun i => s.mem.word (a + 32 * i))
  | .host _ =>
    let r := s.hostAddr x a false
    match r.2 with
    | some h => (r.1.charge pgCxl x 14 (32 * n), 0, wordsOfBytes (r.1.hostRead h (32 * n)))
    | none => (r.1, 0x82, [])
  | .rowWindow _ _ _ => s.remoteReadOp x a n
  | .unassigned => (s, 0x80, [])

/-- The bytes that a mask leaves of words written to host memory. -/
def State.hostPut (s : State) (h : Nat) (ws : List Word256) (mask : Option (BitVec 512)) : State :=
  ws.zipIdx.foldl (fun s x =>
    (toBytes 32 x.1.bits.toNat).zipIdx.foldl (fun s b =>
      let i := 32 * x.2 + b.2
      if (match mask with | some m => m.getLsbD i | none => true) then s.hostWrite (h + i) [b.1] else s) s) s

/-- A write of words at `a` by context `x`: state and status. -/
def State.memWriteOp (s : State) (x hint a : Nat) (ws : List Word256) (mask : Option (BitVec 512)) : State × Nat :=
  let a := a / 32 * 32
  let n := ws.length
  match placeOf a with
  | .hbm stack loc =>
    let st := s.memStatus x a true
    if st ≠ 0 then (s, st)
    else
      let s := (s.lookUp stack loc n hint true).1
      ({ s with mem := s.mem.putWords (homeOf stack loc) ws mask }.charge (pgMsd (stack / 3)) x 10 (32 * n), 0)
  | .lpddr pkg _ =>
    let st := s.memStatus x a true
    if st ≠ 0 then (s, st)
    else ({ s with mem := s.mem.putWords a ws mask }.charge (pgLpddr pkg) x 13 (32 * n), 0)
  | .host _ =>
    let r := s.hostAddr x a true
    match r.2 with
    | some h =>
      let s := (r.1.hostPut h ws mask).charge pgCxl x 15 (32 * n)
      (if ws.any (·.poison) then s.count pgCxl 5 1 else s, 0)
    | none => (r.1, 0x82)
  | .rowWindow _ _ _ => s.remoteWriteOp x a ws mask.isSome
  | .unassigned => (s, 0x80)

/-- Whether a byte span lies in the 48-bit space (R290). -/
def inSpace (a n : Int) : Bool := decide (0 ≤ a ∧ a + n ≤ 2 ^ 48)

/-- What reading bytes answers: state, status, the address of a fault, the bytes and the poison of each. -/
structure Fetched where
  s : State
  status : Nat := 0
  fault : Nat := 0
  bytes : List (Byte × Bool) := []

/-- The bytes of words, each with its word's poison. -/
def bytesOfWords (ws : List Word256) : List (Byte × Bool) :=
  ws.flatMap fun w => (toBytes 32 w.bits.toNat).map (·, w.poison)

/-- Bytes [a, a + n) read by requests that end at 2 KiB blocks; `fuel` bounds the requests. -/
def State.fetch (s : State) (x hint : Nat) : (fuel a n : Nat) → Fetched
  | 0, _, _ => ⟨s, 0, 0, []⟩
  | fuel + 1, a, n =>
    if n = 0 then ⟨s, 0, 0, []⟩
    else
      let len := min n (2048 - a % 2048)
      let r := s.memReadOp x hint a ((a % 32 + len + 31) / 32)
      if r.2.1 ≠ 0 then ⟨r.1, r.2.1, a, []⟩
      else
        let f := State.fetch r.1 x hint fuel (a + len) (n - len)
        { f with bytes := ((bytesOfWords r.2.2).drop (a % 32)).take len ++ f.bytes }

/-- Bytes [a, a + n) read. -/
def State.fetchBytes (s : State) (x hint a n : Nat) : Fetched := s.fetch x hint (n / 2048 + 2) a n

/-- The words that cover bytes `bs` from address `a`, with the poison of 32 B words listed in `poison`. -/
def coverWords (a : Nat) (bs : List Byte) (poison : List Nat) : List Word256 :=
  let pre := List.replicate (a % 32) (0 : Byte)
  (wordsOfBytes (pre ++ bs)).zipIdx.map fun w => { w.1 with poison := poison.contains (a / 32 + w.2) }

/-- The byte mask of `n` bytes from address `a`, where they do not fill whole words. -/
def coverMask (a n : Nat) : Option (BitVec 512) :=
  if a % 32 = 0 ∧ n % 32 = 0 then none else some (BitVec.ofNat 512 (maskBits (a % 32 + n - 1) (a % 32)))

/-- Bytes written by requests that end at 512 B blocks, so that each may carry a mask; state, status, address of a fault. -/
def State.store (s : State) (x hint : Nat) (poison : List Nat) : (fuel a : Nat) → List Byte → State × Nat × Nat
  | 0, _, _ => (s, 0, 0)
  | fuel + 1, a, bs =>
    if bs.isEmpty then (s, 0, 0)
    else
      let len := min bs.length (512 - a % 512)
      let r := s.memWriteOp x hint a (coverWords a (bs.take len) poison) (coverMask a len)
      if r.2 ≠ 0 then (r.1, r.2, a) else State.store r.1 x hint poison fuel (a + len) (bs.drop len)

/-- Bytes written from `a` up. -/
def State.storeBytes (s : State) (x hint a : Nat) (bs : List Byte) (poison : List Nat := []) : State × Nat × Nat :=
  s.store x hint poison (bs.length / 512 + 2) a bs

/-- READ (R318): the responder of the address answers. -/
def execRead (p : Packet) (s : State) : Res :=
  .next (let r := (s.receive p).memReadOp p.ctx.toNat p.hint.toNat p.addr.toNat p.len.toNat
         r.1.inject (dataOrError p r.2.1 r.2.2))

/-- WRITE (R318). -/
def execWrite (p : Packet) (s : State) : Res :=
  .next (let r := (s.receive p).memWriteOp p.ctx.toNat p.hint.toNat p.addr.toNat (wordsOf p) p.mask
         r.1.inject (ackOrError p r.2))

/-! ### Granules, probes, keep marks (R277, R279, R280) -/

/-- GRANULE_WRITE (R277): the entry that GRN_INDEX names. -/
def execGranuleWrite (req : Req) (io : Bool) (d : Fin 8) (value : W32) (s : State) : Res :=
  .next (let n := if io then pgIoDie d.val else pgMsd d.val
         if !s.pageOpen req n || (io && decide (2 ≤ d.val)) then s
         else
           let i := s.regOf n 0x80
           let g := if io then 524288 + 262144 * d.val + i else 55296 * d.val + i
           { s with mem := { s.mem with granules := SMap.put s.mem.granules g (BitVec.ofNat 8 value.toNat) } })

/-- RC_PROBE (R280): a probe starts. -/
def execRcProbe (req : Req) (d : Fin 8) (s : State) : Res :=
  .next (let n := pgReuse d.val
         if !s.pageOpen req n then s
         else
           let s := s.setReg n 0x48 (setField (s.regOf n 0x48) 31 31 0)
           { s with mem := { s.mem with probing := d.val :: listErase s.mem.probing d.val } })

/-- Lines of die `d` that a probe of granules `base` to `base + len - 1` finds. -/
def DeviceMemory.probe (m : DeviceMemory) (d base len : Nat) : Nat :=
  ((SMap.getD m.cache d []).filter fun c =>
    let g := (homeOf c.stack (512 * c.line) - d * 0x1B00000000) / 2 ^ 21
    decide (base ≤ g ∧ g < base + len)).length

/-- RC_PROBE_DONE (R280): within 8 beats the result stands. -/
def execRcProbeDone (d : Fin 8) (s : State) : Res :=
  .next (if !s.mem.probing.contains d.val then s
         else
           let n := pgReuse d.val
           let w := s.regOf n 0x44
           let lines := s.mem.probe d.val (field w 15 0) (field w 31 16)
           let s := { s with mem := { s.mem with probing := listErase s.mem.probing d.val } }
           s.setReg n 0x48 (2 ^ 31 + lines % 2 ^ 19))

/-- KEEP_CLEAR (R279): every keep mark of die `d` is cleared. -/
def execKeepClear (req : Req) (d : Fin 8) (s : State) : Res :=
  .next (if !s.pageOpen req (pgReuse d.val) then s
         else { s with mem := { s.mem with
           cache := SMap.put s.mem.cache d.val ((SMap.getD s.mem.cache d.val []).map fun c => { c with keep := false }) } })

/-! ### Scrubbers (R306, R307, R483) -/

/-- A deferred error of page `n` for the word at `addr` of a stack or package; ERR_ADDR follows the record (R305). -/
def State.wordError (s : State) (n code detail addr : Nat) : State :=
  let taken := errTaken (s.page n).err 1
  let s := s.report n 1 code detail
  if taken then (s.setReg n 0x40 (addr % 2 ^ 32)).setReg n 0x44 (addr / 2 ^ 32) else s

/-- A stored word is given the poison syndrome. -/
def State.poisonWord (s : State) (w : Nat) : State := { s with mem := s.mem.setPoison w true }

/-- An uncorrectable word of a stack is found (R305); one that has its syndrome already is no new error. -/
def State.hbmError (s : State) (stack loc : Nat) : State :=
  let w := homeOf stack loc / 32
  if s.mem.poisoned w then s
  else (s.wordError (pgHbm stack) 0x73 (pseudoChannel loc <<< 15 + loc % 2048 / 32) loc).poisonWord w

/-- An uncorrectable word of a line in the reuse cache is found. -/
def State.cacheError (s : State) (stack loc way : Nat) : State :=
  let w := homeOf stack loc / 32
  let here := (SMap.getD s.mem.cache (stack / 3) []).any fun c => c.isLine stack (loc / 512) && c.sectors.getLsbD (loc % 512 / 64)
  if s.mem.poisoned w || !here then s
  else (s.report (pgReuse (stack / 3)) 1 0x75 (rcSetOf stack (loc / 512) <<< 4 + way)).poisonWord w

/-- The stored address of a package-local byte (R281). -/
def lpddrAddr (p loc : Nat) : Nat := 0x10000000000 + (p / 8) * 2 ^ 39 + ((loc / 2048) * 8 + p % 8) * 2048 + loc % 2048

/-- An uncorrectable word of a package is found. -/
def State.lpddrError (s : State) (p loc : Nat) : State :=
  let w := lpddrAddr p loc / 32
  if s.mem.poisoned w then s else (s.wordError (pgLpddr p) 0x76 (loc % 2048 / 32) loc).poisonWord w

/-- Chunks of a stack, lines of a reuse cache. -/
def scrubLength (u : Nat) : Nat := if u = 3 then 393216 else 18874368

/-- Whether home-view word `w` lies in the chunk, or the set of the line, at which scrubber `u` of die `d` stands. -/
def inScrub (d u pos w : Nat) : Bool :=
  match placeOf (32 * w) with
  | .hbm stack loc =>
    stack / 3 == d && (if u = 3 then rcSetOf stack (loc / 512) == pos / 16 else stack % 3 == u && loc / 2048 == pos)
  | _ => false

/-- A word in error that a scrubber finds is corrected, or given the poison syndrome (R306). -/
def State.scrubWord (s : State) (d u pos : Nat) (x : BitVec 35 × Bool) : State :=
  let n := pgScrub d
  let w := x.1.toNat
  if !inScrub d u pos w then s
  else if !x.2 then s.count n 1 1
  else match placeOf (32 * w) with
    | .hbm stack loc =>
      let t := if u = 3 then s.cacheError stack loc (pos % 16) else s.hbmError stack loc
      if s.mem.poisoned w || !t.mem.poisoned w then s else t.count n 2 1
    | _ => s

/-- SCRUB_CHUNK (R306): the scrubber's next chunk or line, with the words that it finds in error. -/
def execScrubChunk (d : Fin 8) (u : Fin 4) (found : List (BitVec 35 × Bool)) (s : State) : Res :=
  .next (let n := pgScrub d.val
         let i := 4 * d.val + u.val
         if s.regOf n 0x40 = 0 ∨ !s.ready.msd.contains d.val then s
         else
           let pos := SMap.getD s.mem.scrubPos i 0
           let wraps := pos + 1 == scrubLength u.val
           let s := found.foldl (fun s x => s.scrubWord d.val u.val pos x) s
           let s := { s with mem := { s.mem with
             scrubPos := SMap.put s.mem.scrubPos i (if wraps then 0 else pos + 1),
             scrubbed := SMap.mod s.mem.scrubbed i 0 (· + 1) } }
           let s := if u.val < 3 then s.count n 0 1 else s
           if wraps && decide (u.val < 3) then s.count n 3 1 else s)

/-- Expected progress over 65,536 beats (R483). -/
def scrubExpected (interval : Nat) : Nat := 65536 * 151700 / (interval * 1000)

/-- The audit of one scrubber (R483). -/
def State.auditOne (s : State) (d u : Nat) : State :=
  let n := pgScrub d
  let i := 4 * d + u
  let made := SMap.getD s.mem.scrubbed i 0 - SMap.getD s.mem.audited i 0
  let iv := s.regOf n 0x40
  let s := { s with mem := { s.mem with audited := SMap.put s.mem.audited i (SMap.getD s.mem.scrubbed i 0) } }
  if iv ≠ 0 ∧ made < scrubExpected iv / 2 then ((s.report n 0 0xD0 u).pulse n 1).count n 4 1 else s

/-- SCRUB_AUDIT (R483): at the die's next epoch boundary; key 64 + die of `audited` holds the epochs audited. -/
def execScrubAudit (d : Fin 8) (s : State) : Res :=
  .next (let e := SMap.getD s.mem.audited (64 + d.val) 0 + 1
         let s := s.reachBeat (BitVec.ofNat 48 (65536 * e))
         let s := { s with mem := { s.mem with audited := SMap.put s.mem.audited (64 + d.val) (s.beat.toNat / 65536) } }
         (upto 4).foldl (fun s u => s.auditOne d.val u) s)

end Sys2Proof.Machine
end

