-- ==== Sys2Proof/Machine/Awl.lean ====
section
/-! DEFINITION. The Awl (R240 to R244). -/
namespace Sys2Proof.Machine

def awOp (w : Nat) : Nat := field w 63 60
def awIdxFmt (w : Nat) : Nat := field w 59 58
def awKind (w : Nat) : Nat := field w 57 56
def awElem (w : Nat) : Nat := field w 55 52
def awStride (w : Nat) : Nat := field w 51 47
def awZeroMode (w : Nat) : Bool := bitAt w 46
def awArrive (w : Nat) : Bool := bitAt w 45
def awWaitEn (w : Nat) : Bool := bitAt w 44
def awIdx (w : Nat) : Nat := field w 43 38
def awIdxRow (w : Nat) : Nat := field w 37 25
def awCount (w : Nat) : Nat := field w 23 0
def awDst (w : Nat) : Nat := field w 127 122
def awDstRow (w : Nat) : Nat := field w 121 109
def awSrc (w : Nat) : Nat := field w 108 103
/-- `BOUND`; 0 means 2^32. -/
def awBound (w : Nat) : Nat := let b := field w 95 64; if b = 0 then 2 ^ 32 else b
def awBase (w : Nat) : Nat := field w 175 128
def awWaitHandle (w : Nat) : Nat := field w 255 250
def awWaitCount (w : Nat) : Nat := field w 223 192
/-- Bytes of an index, and of an element. -/
def awIdxBytes (w : Nat) : Nat := if awIdxFmt w = 0 then 2 else 4
def awElemBytes (w : Nat) : Nat := 2 ^ awElem w
/-- Index rows and destination rows. -/
def awIdxRows (w : Nat) : Nat := (awCount w * awIdxBytes w + 511) / 512
def awDstRows (w : Nat) : Nat := (awCount w * awElemBytes w + 511) / 512

/-- Whether a descriptor passes R241, and R228 for the handle it waits on. -/
def ClusterState.awlOk (c : ClusterState) (w : Nat) : Bool :=
  let good := fun h first n => (c.handle h).covers first n && !(c.handle h).isRing
  awOp w == 1 && awIdxFmt w != 3 && decide (awKind w ≤ 1) && decide (1 ≤ awElem w ∧ awElem w ≤ 9)
    && decide (awElem w ≤ awStride w ∧ awStride w ≤ 24) && awCount w != 0
    && field w 24 24 == 0 && field w 102 96 == 0 && field w 191 176 == 0 && field w 249 224 == 0 && field w 511 256 == 0
    && awBase w % awElemBytes w == 0 && (!awWaitEn w || ((c.handle (awWaitHandle w)).valid && !(c.handle (awWaitHandle w)).isRing))
    && good (awIdx w) (awIdxRow w) (awIdxRows w) && good (awDst w) (awDstRow w) (awDstRows w)
    && (awKind w == 0 || (field w 175 150 == 0 && good (awSrc w) 0 0
        && decide (awBase w + (awBound w - 1) * 2 ^ awStride w + awElemBytes w ≤ 512 * (c.handle (awSrc w)).length)))

/-- Byte `b` from row `row` of handle `h`, with the poison of its word. -/
def ClusterState.handleByte (c : ClusterState) (k h row b : Nat) : Byte × Bool :=
  let r := c.row k ((c.handle h).baseRow + row + b / 512)
  (r.byte (b % 512), r.poison.getLsbD (b % 512 / 32))

/-- Index `n`: its value as an integer, and its poison. -/
def ClusterState.awlIndex (c : ClusterState) (k w n : Nat) : Int × Bool :=
  let bs := (upto (awIdxBytes w)).map fun i => c.handleByte k (awIdx w) (awIdxRow w) (n * awIdxBytes w + i)
  let v := ofBytes (bs.map (·.1))
  (if awIdxFmt w = 2 then signedOf v 32 else v, bs.any (·.2))

/-- Whether an index is out of bounds (R243). -/
def awlOut (w : Nat) (i : Int × Bool) : Bool := i.2 || decide (i.1 < 0) || decide ((awBound w : Int) ≤ i.1)

/-- What a gather has assembled: bytes with poison, out-of-bounds elements, and how it stopped. -/
structure Gathered where
  s : State
  bytes : List (Byte × Bool) := []
  fetched : Nat := 0
  oob : Nat := 0
  /-- The element whose request has no answer (R285). -/
  lost : Option Nat := none
  /-- The element at which the Awl stopped: an out-of-bounds index (`none`), or a fault's code and address. -/
  stop : Option (Nat × Option (Nat × Nat)) := none

/-- Element `n` (R242, R243), for context `x`. -/
def Gathered.elem (g : Gathered) (k x w n : Nat) : Gathered :=
  if g.stop.isSome then g
  else
    let c := g.s.cl k
    let (i, bad) := c.awlIndex k w n
    if awlOut w (i, bad) then
      if awZeroMode w then { g with bytes := g.bytes ++ List.replicate (awElemBytes w) (0, bad), oob := g.oob + 1 }
      else { g with stop := some (n, none), oob := g.oob + 1 }
    else
      let a := awBase w + i.toNat * 2 ^ awStride w
      if awKind w = 1 then
        let bs := (upto (awElemBytes w)).map fun b => c.handleByte k (awSrc w) 0 (a + b)
        { g with bytes := g.bytes ++ bs, fetched := g.fetched + 1 }
      else if g.lost = some n then { g with stop := some (n, some (0x85, a)) }
      else if 2 ^ 48 < a + awElemBytes w then { g with stop := some (n, some (0x80, a)) }
      else
        let f := (g.s.unseal k).fetchBytes x 0 a (awElemBytes w)
        if f.status = 0 then { g with s := f.s, bytes := g.bytes ++ f.bytes, fetched := g.fetched + 1 }
        else { g with s := f.s, stop := some (n, some (f.status, f.fault)) }

/-- A row from up to 512 bytes with their poison; the rest is zero (R214). -/
def rowOfPairs (bs : List (Byte × Bool)) : Row :=
  rowOf (bs.map (·.1)) ((upto 16).foldl (fun p i => if ((bs.drop (32 * i)).take 32).any (·.2) then p + 2 ^ i else p) 0)

/-- The rows that bytes fill: all of them, or only the whole ones where the engine stopped. -/
def rowsOfPairs (bs : List (Byte × Bool)) (whole : Bool) : List Row :=
  let n := if whole then bs.length / 512 else (bs.length + 511) / 512
  (upto n).map fun i => rowOfPairs ((bs.drop (512 * i)).take 512)

/-- The context of the task that runs on cluster `k`. -/
def State.taskCtx (s : State) (k : Nat) : Nat := (s.ownerOf k).getD 0

/-- The rows that the Awl moves for its first `m` elements, `rows` destination rows among them (R212, R213, R242): the index rows in
bursts of 4, one row for an element of its own row memory, and each destination row when its elements have landed. -/
def ClusterState.awlBursts (c : ClusterState) (k w m rows t : Nat) : List RowRequest :=
  let per := 2048 / awIdxBytes w
  let at_ := fun h row => (c.handle h).baseRow + row
  (upto m).flatMap fun n =>
    let i := c.awlIndex k w n
    let row := n * awElemBytes w / 512
    (if n % per = 0 then [{ spans := [(at_ (awIdx w) (awIdxRow w + 4 * (n / per)), min 4 (awIdxRows w - 4 * (n / per)))], ready := t }] else [])
      ++ (if awKind w = 1 ∧ !awlOut w i then
            [{ spans := [(at_ (awSrc w) ((awBase w + i.1.toNat * 2 ^ awStride w) / 512), 1)], ready := t }] else [])
      ++ (if ((n + 1) * awElemBytes w % 512 = 0 ∨ n + 1 = awCount w) ∧ row < rows then
            [{ spans := [(at_ (awDst w) (awDstRow w + row), 1)], write := true, ready := t, gap := 4 }] else [])

/-- The descriptor at the head of the Awl's queue, gathered up to its end or stop. -/
def State.gathered (s : State) (k w : Nat) (lost : Option Nat) : Gathered :=
  (upto (awCount w)).foldl (fun g i => g.elem k (s.taskCtx k) w i) ({ s := s, lost := lost } : Gathered)

/-- Index rows read, the free `a` of them ahead of the one in which the Awl stopped (R242, R244). -/
def awlRowsRead (w a : Nat) (stop : Option Nat) : Nat :=
  match stop with
  | none => awIdxRows w
  | some n => min (awIdxRows w) (n * awIdxBytes w / 512 + 1 + a % 4)

/-- The gather `g` of descriptor `d` ends: rows, counters, events, and the record (R242 to R244). -/
def State.endGather (s : State) (k : Nat) (d : PendingDesc) (g : Gathered) : State :=
  let n := pgAwl k
  let w := d.bits.toNat
  let rows := rowsOfPairs g.bytes g.stop.isSome
  let m := match g.stop with | some (i, _) => i + 1 | none => awCount w
  let (free, t) := g.s.fresh
  let t := (t.askRows k 10 ((s.cl k).awlBursts k w m rows.length s.clock)).writeRows k (awDst w) (awDstRow w) (awArrive w) rows
  let t := t.modCl k fun c => { c with awl := { c.awl with
    oobSeen := decide (0 < g.oob), done := min (awCount w) (rows.length * 512 / awElemBytes w) } }
  let full := if g.fetched < 64 ∨ awKind w = 1 then 0 else Config.awlFull free
  let t := ((((t.count n 0 g.fetched).count n 2 rows.length).count n 3 full).count n 4
    (awlRowsRead w (Config.awlAhead free) (g.stop.map (·.1)))).active k
  let t := if 0 < g.oob then t.pulse n 1 else t
  let t := if awZeroMode w then t.count n 1 g.oob else t
  let t := if g.stop.isSome then t.modCl k fun c => { c with awl := { c.awl with queue := [] } } else t
  match g.stop with
  | some (i, none) => t.endTask k { status := 0xA, engine := 1, value := i }
  | some (_, some (code, a)) => t.memoryFault k n 1 0 code a
  | none => (t.pulse n 2).finishRecord k d

/-- The head of the Awl's queue is taken. -/
def State.popAwl (s : State) (k : Nat) : State := s.modCl k fun c => { c with awl := { c.awl with queue := c.awl.queue.drop 1 } }

/-- GATHER (R242, R243). -/
def execGather (k : Cl) (s : State) : Res :=
  .next (let k := k.val
         let c := s.cl k
         match c.awl.queue with
         | [] => s
         | d :: _ =>
           let w := d.bits.toNat
           if s.halts k then s
           else if !c.awlOk w then (s.popAwl k).refuseDesc k 1 0 0 d.offset
           else if !c.waitMet (awWaitEn w) (awWaitHandle w) (awWaitCount w) then s
           else (s.popAwl k).endGather k d ((s.popAwl k).gathered k w none))

/-- The Awl's request for element `n` of the descriptor at the head has no answer (R285): what lay before it is done. -/
def State.gatherTimeout (s : State) (k n : Nat) : State :=
  let c := s.cl k
  match c.awl.queue with
  | [] => s
  | d :: _ =>
    let w := d.bits.toNat
    if s.halts k || !c.awlOk w || !c.waitMet (awWaitEn w) (awWaitHandle w) (awWaitCount w) then s
    else
      let t := (s.popAwl k).reachClock (s.limitAt s.clock 4096 (if bitAt (awBase w) 47 then 256 else 16))
      let g := t.gathered k w (some n)
      if g.stop.any fun x => x.1 == n && x.2.any (·.1 == 0x85) then t.endGather k d g else s

end Sys2Proof.Machine
end

