-- ==== Sys2Proof/Machine/Bridle.lean ====
section
/-! DEFINITION. The Bridle's books (R410, R418 to R423): caps, bookings, headroom, and the consideration of the outstanding
request. -/
namespace Sys2Proof.Machine

/-! ### Caps (R410, R418) -/

def State.brCap (s : State) : Nat := s.reg pgBridle 0x40 (8000 * 2 ^ 16 + 65535)
def State.brFac (s : State) : Nat := s.reg pgBridle 0x44 (8000 * 2 ^ 16 + 8000)
def State.brShed (s : State) : Nat := s.reg pgBridle 0x88 (32 * 2 ^ 8 + 9)
def State.baseW (s : State) : Nat := s.reg pgBridle 0x48 0x44D10578 % 65536
def State.ctxCap (s : State) : Nat := s.brCap % 65536
def State.dieAllow (s : State) (d : Nat) : Nat := s.reg pgBridle (0x50 + 4 * d) 1000 % 65536

/-- The shed level that governs: 0 none, 1 60 %, 2 30 % (R410). -/
def State.shedLevel (s : State) : Nat :=
  if s.bridle.below44 || (s.bridle.shedN && bitAt s.brShed 16) then 2
  else if s.bridle.below48 || s.bridle.shedN then 1 else 0

/-- The power of a shed level. -/
def shedWatts (level : Nat) : Nat := if level = 2 then 2400 else 4800

/-- The continuous cap C (R418). -/
def State.capC (s : State) : Nat :=
  if s.shedLevel ≠ 0 then shedWatts s.shedLevel else min (min (field s.brCap 31 16) (s.brFac % 65536)) 8000

/-- The peak cap P (R418). -/
def State.capP (s : State) : Nat :=
  if s.shedLevel ≠ 0 then shedWatts s.shedLevel else max s.capC (min (field s.brFac 31 16) 9600)

/-! ### Sums over booked tasks (R420) -/

def Bridle.bookedPeak (b : Bridle) : Nat := b.bookings.foldl (fun n x => n + x.peak) 0
def Bridle.bookedMean (b : Bridle) : Nat := b.bookings.foldl (fun n x => n + x.mean) 0

/-- Peaks of a context's booked tasks. -/
def Bridle.ctxPeak (b : Bridle) (x : Nat) : Nat := (b.bookings.filter (·.ctx == x)).foldl (fun n x => n + x.peak) 0

/-- Clusters of region `r`, and those on compute die `d`. -/
def State.regionSize (s : State) (r : Nat) : Nat := (s.region r).clusters.length
def State.regionOn (s : State) (r d : Nat) : Nat := ((s.region r).clusters.filter fun k => dieOf k == d).length

/-- A task's mean on a compute die. -/
def State.shareOn (s : State) (r mean d : Nat) : Rat :=
  if s.regionSize r = 0 then 0 else (mean * s.regionOn r d : Nat) / (s.regionSize r : Rat)

/-- Booked mean on a compute die. -/
def State.dieMean (s : State) (d : Nat) : Rat := s.bridle.bookings.foldl (fun t b => t + s.shareOn b.region b.mean d) 0

/-- HEADROOM (R419). -/
def State.headroom (s : State) : Nat := s.capP - (s.baseW + s.bridle.bookedPeak)

/-- The later of two beats (R56). -/
def laterBeat (a b : BitVec 48) : BitVec 48 := if (b - a).toNat < 2 ^ 47 then b else a

/-- The first beat with pace 64 of a ramp that begins at `s` (R423). -/
def rampEndOf (peak : Nat) (s : BitVec 48) : BitVec 48 :=
  let step := 12800 / peak
  if peak ≤ 200 ∨ step = 0 then s else s + BitVec.ofNat 48 ((64 + step - 1) / step - 1)

/-- `ramp_end` of the booked tasks, from beat `s` on (R420); one of at most 200 W sets none (R423). -/
def Bridle.afterRamps (b : Bridle) (s : BitVec 48) : BitVec 48 :=
  b.bookings.foldl (fun t x => if x.peak ≤ 200 then t else laterBeat t (rampEndOf x.peak x.start)) s

/-! ### Considering the outstanding request (R420, R421) -/

/-- What the Bridle answers in a beat. -/
inductive Verdict where
  | wait
  /-- A forecast of this level is wanted. -/
  | forecast (level : Nat)
  | grant (beat : BitVec 48)
deriving DecidableEq, Repr

/-- The procedure of R420 for a request that no forecast has answered. -/
def State.consider (s : State) (q : GrantRequest) : Verdict :=
  let level := s.baseW + s.bridle.bookedPeak + q.peak
  if s.capC < s.baseW + s.bridle.bookedMean + q.mean then .wait
  else if s.capP < level then .wait
  else if (upto 8).any fun d => decide (0 < s.regionOn q.region d)
      && decide ((s.dieAllow d : Rat) < s.dieMean d + s.shareOn q.region q.mean d) then .wait
  else if s.ctxCap < s.bridle.ctxPeak q.ctx + q.peak then .wait
  else if s.bridle.announced + 400 < level then (if s.bridle.stale then .wait else .forecast level)
  else .grant (s.bridle.afterRamps (s.beat + 3#48))

/-- The Bridle changed. -/
def State.modBridle (s : State) (f : Bridle → Bridle) : State := { s with bridle := f s.bridle }

/-! ### Rising paces (R410) -/

/-- Booked peak of running tasks. -/
def State.runningPeak (s : State) : Nat :=
  s.bridle.bookings.foldl (fun n b => if (s.region b.region).task.any (·.started) then n + b.peak else n) 0

/-- A pace that rises from its present value to `goal` (R410): at once when nothing is booked. -/
def State.rise (s : State) (g : Glide) (goal : Nat) : Glide :=
  let now := g.at s.beat
  let peak := s.runningPeak
  if peak = 0 ∨ goal ≤ now then { start := goal, since := s.beat, step := 0, goal := goal }
  else { start := now, since := s.beat, step := 12800 / peak, goal := goal }

/-- The RUNNING clusters. -/
def State.runningClusters (s : State) : List Nat :=
  s.regions.flatMap fun r => if r.2.state == .running then r.2.clusters else []

/-- The limiter's pace changed in every RUNNING cluster (R424). -/
def State.modLimiter (s : State) (f : Glide → Glide) : State :=
  s.modCls s.runningClusters fun c => { c with limiter := f c.limiter }

/-- The fall of a limiter pace by 8 a beat, down to PACE30 (R424). -/
def State.limiterFall (s : State) (g : Glide) : Glide :=
  let now := g.at s.beat
  { start := now, since := s.beat, step := 8, goal := min now (field s.brShed 5 0) }

/-- The paces that rise go on by the booked peak of the tasks that run now (R410). -/
def State.regrade (s : State) : State :=
  let f := fun (g : Glide) => if g.at s.beat < g.goal then s.rise g g.goal else g
  (s.modLimiter f).modBridle fun b => { b with shed := f b.shed, thermal := SMap.mapAll b.thermal f }

/-- The request is granted for beat `b`: the booking is made (R420, R428). -/
def State.bookGrant (s : State) (q : GrantRequest) (b : BitVec 48) (forecast : Bool) : State :=
  let s := s.modBridle fun r =>
    { r with bookings := r.bookings ++ [⟨q.ctx, q.region, q.peak, q.mean, b⟩], request := some { q with granted := some b } }
  let s := s.count pgBridle 0 1
  if forecast then s.count pgBridle 1 1 else s

/-- FC_REQ asks for a forecast (R421 step 1). -/
def State.wantForecast (s : State) (level : Nat) : State :=
  (s.modBridle fun r =>
    { r with fcPending := true, fcLevel := level, request := r.request.map fun q => { q with forecast := true } }).raiseEvent pgBridle 1

/-- FC_REQ.PENDING clears. -/
def State.dropForecast (s : State) : State :=
  (s.modBridle fun r => { r with fcPending := false }).dropEvent pgBridle 1

/-- A FORECAST post of level `level` for beat `f` has been accepted (R421 step 5). -/
def State.forecastPosted (s : State) (level : Nat) (f : BitVec 48) : State :=
  if !s.bridle.fcPending || level < s.bridle.fcLevel then s
  else
    let s := s.dropForecast
    match s.bridle.request with
    | some q => if q.granted.isNone then s.bookGrant q (s.bridle.afterRamps f) true else s
    | none => s

/-- A booking ends, and an outstanding request of the region goes with it (R395, R420). -/
def State.unbook (s : State) (r : Nat) : State :=
  let gone := s.bridle.request.any fun q => q.region == r
  let s := s.modBridle fun b =>
    { b with bookings := b.bookings.filter fun x => x.region != r, request := b.request.filter fun q => q.region != r }
  (if gone then s.dropForecast else s).regrade

end Sys2Proof.Machine
end

