-- ==== Sys2Proof/Machine/Calendar.lean ====
section
/-! DEFINITION. Calendars (R60 to R63): posting, cancelling, and the order in which entries take effect (R25). -/
namespace Sys2Proof.Machine

/-- The pending entries of a calendar, in posting order. -/
def State.cal (s : State) (page : Nat) : List CalEntry := SMap.getD s.cals page []

/-- A calendar replaced. -/
def State.setCal (s : State) (page : Nat) (es : List CalEntry) : State := { s with cals := SMap.put s.cals page es }

/-- Entries a calendar holds (R61). -/
def calRoom (b : Block) : Nat := if b = .bridle then 512 else 64

/-- Whether an action code is one of R61's. -/
def actionKnown (a : Nat) : Bool :=
  (1 ≤ a && a ≤ 6) || (0x10 ≤ a && a ≤ 0x12) || a == 0x20 || a == 0x21 || a == 0xFF

/-- Whether an action belongs to a block's calendar (R61). -/
def actionFits (b : Block) (a : Nat) : Bool :=
  match b with
  | .clCtrl => (1 ≤ a && a ≤ 6) || a == 0xFF
  | .bridle => (0x10 ≤ a && a ≤ 0x12) || a == 0xFF
  | .trunk => a == 0x20 || a == 0x21 || a == 0xFF
  | _ => false

/-- Whether the management plane posts an action (R61). -/
def actionMgmt (a : Nat) : Bool := a == 5 || a == 6 || (0x10 ≤ a && a ≤ 0x12)

/-- Whether the action's chapter takes the argument (R195, R350, R390, R415, R418, R421, R438). -/
def argOk (a arg : Nat) : Bool :=
  match a with
  | 1 => field arg 31 3 == 0
  | 3 => field arg 31 7 == 0
  | 4 => field arg 31 29 == 0
  | 5 | 6 => field arg 31 2 == 0 && arg != 3
  | 0x10 | 0x11 => decide (field arg 15 0 ≤ 8000 ∧ field arg 15 0 ≤ field arg 31 16 ∧ field arg 31 16 ≤ 9600)
  | 0x12 => field arg 31 16 == 0
  | 0x20 => decide (field arg 16 10 < 80 ∧ field arg 5 3 ≤ 4)
  | 0x21 => field arg 31 26 == 0 && field arg 16 0 == 0
  | _ => true

/-- The fields of the entry that a requester's window and `w3` hold (R60). -/
structure Posted where
  action : Nat
  lateOk : Bool
  zero : Nat
  period : Nat
  left : Nat
  arg : W32
  beat : BitVec 48
deriving DecidableEq, Repr

/-- R60's layout. -/
def postedOf (w : PostWindow) (w3 : W32) : Posted :=
  { action := field w3.toNat 31 24, lateOk := bitAt w3.toNat 23, zero := field w3.toNat 22 16,
    period := field w3.toNat 15 0, left := field w.w2.toNat 31 16,
    arg := BitVec.ofNat 32 (field w.w2.toNat 15 0 * 2 ^ 16 + field w.w1.toNat 31 16),
    beat := BitVec.ofNat 48 (field w.w1.toNat 15 0 * 2 ^ 32 + w.w0.toNat) }

/-- The lead that a post of an action needs (R62, R421). -/
def leadOf (action : Nat) : Nat := if action = 0x12 then 64 else 2

/-- Whether a beat lies at least `n` beats after `now` (R62). -/
def hasLead (n : Nat) (b now : BitVec 48) : Bool := decide ((b - now).toNat < 2 ^ 47 ∧ n ≤ (b - now).toNat)

/-- The result of a post, judged in the order of R62. -/
def judgePost (b : Block) (req : Req) (now : BitVec 48) (held : Nat) (p : Posted) : Nat :=
  let cancel := p.action == 0xFF
  let arg := p.arg.toNat
  let planeOf := if cancel then arg % 256 else p.action
  if req.val = 18 then 4
  else if !actionKnown p.action then 5
  else if !actionFits b p.action then 4
  else if cancel && !(actionKnown planeOf && planeOf != 0xFF) then 5
  else if actionMgmt planeOf != isMgmtReq req then 4
  else if p.zero != 0 || (cancel && (field arg 31 8 != 0 || p.period != 0 || p.left != 0)) || !argOk p.action arg then 5
  else
    let late := !hasLead (leadOf p.action) p.beat now
    if late && !p.lateOk then 2
    else if !cancel && calRoom b ≤ held then 1
    else if late then 3 else 0

/-- The beat at which an accepted post first executes (R62). -/
def postBeat (p : Posted) (now : BitVec 48) (result : Nat) : BitVec 48 := if result = 3 then now + BitVec.ofNat 48 (leadOf p.action) else p.beat

/-- The requester's result register after a post (R61). -/
def State.postResult (s : State) (page : Nat) (req : Req) (r : Nat) : State :=
  s.modPage page fun g => { g with windows := SMap.mod g.windows req.val {} fun w => { w with result := r } }

/-! ### Execution order -/

/-- The place of an action in the order of R25; armed schedule entries stand just before posted fold switches (R196). -/
def actionRank (a : Nat) : Nat :=
  match a with
  | 5 | 0x10 => 10
  | 2 => 20
  | 0x21 => 24
  | 0x20 => 25
  | 1 => 30
  | 3 | 4 => 40
  | 6 | 0x11 => 50
  | _ => 60

/-- The rank of an armed schedule entry. -/
def armedRank : Nat := 29

/-- A beat's distance used to order beats around the present one (R56). -/
def beatKey (now b : BitVec 48) : Nat := (b - now + 0x800000000000#48).toNat

/-- Whether something takes effect with an entry of calendar `page`: a REGION_COMMIT or TASK_START entry that no load and no
granted task of its cluster's region awaits has no effect (R208, R390; log 25). -/
def State.awaited (s : State) (page : Nat) (e : CalEntry) : Bool :=
  if e.action ≠ 2 ∧ e.action ≠ 3 then true
  else match s.regionOf? ((page - 0x4000) / 0x40) with
    | none => false
    | some (_, g) =>
      if e.action = 2 then (g.load.bind (·.commit)) == some e.beat
      else g.task.any fun t => t.phase == .granted && t.start == e.beat

/-- Every pending execution: beat and rank. -/
def State.executions (s : State) : List (BitVec 48 × Nat) :=
  (s.cals.flatMap fun c => (c.2.filter (s.awaited c.1)).map fun e => (e.beat, actionRank e.action))
  ++ (s.clusters.flatMap fun c => (c.2.armed.map fun a => (a.beat, armedRank))
      ++ c.2.barriers.filterMap fun w => w.deadline.map fun d => (d, actionRank 4))

/-- The entries of a calendar without those whose beat has passed with no effect. -/
def State.pruned (s : State) (page : Nat) : List CalEntry :=
  (s.cal page).filter fun e => s.awaited page e || !beatDue e.beat s.beat

/-- Nothing that R25 puts before an execution at `b` of rank `r` is pending. -/
def State.inOrder (s : State) (b : BitVec 48) (r : Nat) : Bool :=
  s.executions.all fun e =>
    !(decide (beatKey s.beat e.1 < beatKey s.beat b) || (e.1 == b && decide (e.2 < r)))

/-- The position and entry of action `a` that is next in a calendar; posting order among equals (R63). -/
def nextEntry (now : BitVec 48) (a : Nat) (es : List CalEntry) : Option (Nat × CalEntry) :=
  (es.zipIdx).foldl (fun best p =>
    if p.1.action ≠ a then best
    else match best with
      | none => some (p.2, p.1)
      | some (i, e) => if beatKey now p.1.beat < beatKey now e.beat then some (p.2, p.1) else some (i, e)) none

/-- An entry after its execution: re-armed, or gone (R63). -/
def afterExecution (es : List CalEntry) (i : Nat) (e : CalEntry) : List CalEntry :=
  if e.period = 0 ∨ e.left = 0 then listDrop es i
  else listSet es i { e with beat := e.beat + BitVec.ofNat 48 e.period, left := e.left - 1 }

/-- The next entry of action `a` in calendar `page` is taken: its beat is reached and the calendar updated. `none` when there is
none, or when R25 puts another execution first. -/
def State.takeEntry (s : State) (page a : Nat) : Option (CalEntry × State) :=
  match nextEntry s.beat a (s.cal page) with
  | none => none
  | some (i, e) =>
    if s.inOrder e.beat (actionRank a) then
      some (e, (s.reachBeat e.beat).setCal page (afterExecution (s.cal page) i e))
    else none

/-! ### CAL_POST and CANCEL (R62) -/

/-- A post judged: its fields and its result; `none` where the page has no calendar or does not answer (R33). -/
def State.post? (s : State) (req : Req) (page : Nat) (w3 : W32) : Option (Posted × Nat) :=
  match pageBlock page with
  | some b =>
    if (s.page page).inReset || !(b == .clCtrl || b == .bridle || b == .trunk) then none
    else
      let p := postedOf (SMap.getD (s.page page).windows req.val {}) w3
      some (p, judgePost b req s.beat (s.pruned page).length p)
  | none => none

/-- CAL_POST (R62, R421): an entry of an action other than CANCEL. -/
def execCalPost (req : Req) (page : BitVec 16) (w3 : W32) (s : State) : Res :=
  .next (match s.post? req page.toNat w3 with
    | none => s
    | some (p, r) =>
      if p.action = 0xFF then s
      else
        let s' := s.postResult page.toNat req r
        if r = 0 ∨ r = 3 then
          let s' := s'.setCal page.toNat (s.pruned page.toNat ++ [⟨p.action, p.arg, p.period, p.left, postBeat p s.beat r⟩])
          if p.action = 0x12 then s'.forecastPosted (field p.arg.toNat 15 0) (postBeat p s.beat r) else s'
        else s')

/-- CANCEL (R62): every posted entry of the named action that is due at the CANCEL's beat is removed. -/
def execCancel (req : Req) (page : BitVec 16) (w3 : W32) (s : State) : Res :=
  .next (match s.post? req page.toNat w3 with
    | none => s
    | some (p, r) =>
      if p.action ≠ 0xFF then s
      else
        let s' := s.postResult page.toNat req r
        if r = 0 ∨ r = 3 then
          s'.setCal page.toNat ((s.cal page.toNat).filter fun e =>
            !(e.action == p.arg.toNat % 256 && e.beat == postBeat p s.beat r))
        else s')

end Sys2Proof.Machine
end

