-- ==== Sys2Proof/Machine/Engines.lean ====
section
/-! DEFINITION. The engines of a core (R74 to R104, R122, R127): DPE, lane engine, control engine, emission, stray tokens, and
the landing of results. -/
namespace Sys2Proof.Machine

/-! ### Stall counters (R517, R518) -/

/-- A counter of R517 counts cycle `t`, once, with `2^shift` cycles a count. -/
def StallCount.bump (x : StallCount) (shift t : Nat) : StallCount :=
  if x.seen = t + 1 then x
  else if 2 ^ shift ≤ x.residue + 1 then { count := min 65535 (x.count + 1), residue := 0, seen := t + 1 }
  else { x with residue := x.residue + 1, seen := t + 1 }

/-- `TEL_CTRL.SHIFT` of the core's column (R518). -/
def State.telShift (s : State) (k n : Nat) : Nat := s.reg (pgTelemetry k (n % 32)) 0x40 % 16

/-- Reason `r` counted for a cycle. -/
def CoreState.stall (c : CoreState) (r shift t : Nat) : CoreState :=
  { c with stalls := SMap.mod c.stalls r {} (·.bump shift t) }

/-- The full counters of the queues whose share of the active fold is full (R517). -/
def CoreState.countFull (c : CoreState) (f shift t : Nat) : CoreState :=
  (upto 8).foldl (fun c q =>
    let cred := cwCred (c.word f) q
    if 1 ≤ cred ∧ cred ≤ c.held q f then c.stall (8 + q) shift t else c) c

/-! ### A firing opportunity -/

/-- What a firing changes, gathered before it is applied. -/
structure Firing where
  core : CoreState
  /-- Poison was read (R77). -/
  poison : Bool := false
  overruns : Nat := 0
  exhausted : Bool := false
  /-- Counters of CL_CTRL that advance by one. -/
  counts : List Nat := []
  /-- First cycle in which the engine may fire again. -/
  next : Nat
  /-- Core-store read ports taken (R88), and counters that wrapped. -/
  reads : Nat := 0
  wraps : List Nat := []
deriving DecidableEq, Repr

/-- The outcome of an opportunity. -/
inductive Attempt where
  | fired (x : Firing)
  /-- A reason of R517. -/
  | stalled (reason : Nat)
  /-- Nothing happens, and nothing is counted. -/
  | quiet
  /-- The lane engine is withheld by R409. -/
  | withheld
deriving DecidableEq, Repr

/-- Whether ports of cluster `k` may launch in this cycle: a running or draining region, no bubble, no suppressed round (R195, R407). What
fired before a region closed still launches, and ends at closed pairs (R204). -/
def State.portOpen (s : State) (k : Nat) : Bool :=
  let c := s.cl k
  decide (c.bubbleEnd ≤ s.clock) && !c.frozen && !c.stopped && !s.suppressed k
  && (match s.regionOf? k with
      | some (_, g) => g.state == .running || g.state == .draining
      | none => false)

/-- Whether engines of cluster `k` may fire in this cycle. -/
def State.roundOpen (s : State) (k : Nat) : Bool := s.portOpen k && !(s.cl k).isClosed

/-- R85 conditions 1 and 8 in cycle `t`; a slot that exhausts stops after the cycle of that firing (R93). -/
def CoreState.ready (c : CoreState) (f t : Nat) : Bool :=
  cwValid (c.word f) && (!c.exhausted.contains f || c.exhaustedAt == t + 1) && c.gates == 0

/-- The pairs of `CLOSE_MASK` close and the slot stops (R93, R81). -/
def State.exhaust (s : State) (k n f : Nat) : State :=
  let w := (s.core k n).word f
  let s := s.modCore k n fun c => { c with exhausted := f :: c.exhausted, exhaustedAt := s.clock + 1 }
  (upto 8).foldl (fun s q => if cwCloses w q then s.closePair k n q f 1 else s) s

/-- Shares of fold `f` whose heads were consumed give back what they freed. -/
def State.freeShares (s : State) (k n f : Nat) (qs : List Nat) : State :=
  qs.foldl (fun s q => s.modCl k (·.freed n q f s.clock)) s

/-- DPE and gang firings of a round counted, for R409; the last two rounds are kept. -/
def ClusterState.countDpe (c : ClusterState) (round n : Nat) : ClusterState :=
  { c with dpeRounds := match c.dpeRounds with
      | (r, m) :: rest => if r = round then (r, m + n) :: rest else [(round, n), (r, m)]
      | [] => [(round, n)] }

/-- A firing applied: the core, counters, exceptions, freed entries, exhaustion (R77, R92, R93, R105). -/
def State.applyFiring (s : State) (k n e f : Nat) (freed : List Nat) (x : Firing) : State :=
  let s := s.modCore k n fun _ =>
    { x.core with nextFire := SMap.put x.core.nextFire e x.next, firedBeat := s.beats + 1 }
  let s := s.modCl k fun c => { c with firedBeat := s.beats + 1, activeBeat := s.beats + 1 }
  let s := if e = 0 then s.modCl k (·.countDpe (s.now / 16) 1) else s
  let s := s.freeShares k n f freed
  let s := x.counts.foldl (fun s i => s.count (pgClCtrl k) i 1) s
  let s := (upto x.overruns).foldl (fun s _ => s.coreExc k n 3 0) s
  let s := if x.poison then s.coreExc k n 4 0 else s
  if x.exhausted then s.exhaust k n f else s

/-- Whether cycle `t` is the second cycle of a 32 B result to the destination that the LE's next result takes (R103). -/
def CoreState.leHeld (c : CoreState) (w t : Nat) : Bool :=
  match c.leWide with
  | some (u, d) => t == u + 1 && d == cwLeDest w / (if dCode (cwLeDest w) < 4 then 64 else 8)
  | none => false

/-- The cycle of engine `e`'s next opportunity is reached (R74, R103). -/
def State.reachTurn (s : State) (k n e : Nat) : State :=
  let s := s.reachClock (SMap.getD (s.core k n).nextFire e 0)
  let c := s.core k n
  if e == 1 && c.leHeld (c.word (s.cl k).activeFold) s.clock then s.advance 1 else s

/-- Engine `e`'s next opportunity: the first cycle in which it may fire again is reached, and the attempt made (R85, R517). -/
def State.opportunity (s : State) (id : CoreId) (e : Nat)
    (attempt : State → CoreState → (f w t : Nat) → Attempt) (queuesOf : CoreState → CoreState → List Nat) : State :=
  let k := id.k.val
  let n := coreNum id
  let s := s.reachTurn k n e
  let s := s.modCore k n (·.settleSlack s.clock)
  let t := s.clock
  let f := (s.cl k).activeFold
  let c := s.core k n
  let pass := fun (s : State) => s.modCore k n fun c => { c with nextFire := SMap.put c.nextFire e (t + 1) }
  if !(s.roundOpen k && c.ready f t) then pass s
  else
    let shift := s.telShift k n
    let s := s.modCore k n (·.countFull f shift t)
    let c := s.core k n
    match attempt s c f (c.word f) t with
    | .quiet => pass s
    | .withheld => ((pass s).unseal k).count (pgClPower k) 3 1
    | .stalled r => (pass s).modCore k n (·.stall r shift t)
    | .fired x => s.applyFiring k n e f (queuesOf c x.core) x

/-- Queues that hold fewer tokens after a firing, one for each token taken: a queue is read by one operand (R84). -/
def takenQueues (before after : CoreState) : List Nat :=
  (upto 8).filter fun q => decide ((after.queue q).length < (before.queue q).length)

/-! ### Parts of a firing -/

/-- Heads consumed from their queues. -/
def CoreState.consume (c : CoreState) (f : Nat) (hs : List (Nat × Token)) : CoreState :=
  hs.foldl (fun c h => { c with queues := SMap.put c.queues h.1 (dropFold f (c.queue h.1)) }) c


/-- The rotation pointer after reads through the selection group (R83). -/
def CoreState.rotate (c : CoreState) (f w : Nat) (rs : List Read) : CoreState :=
  match firstSome (fun r => r.group.isSome) rs with
  | some r => if cwSelMode w then { c with rot := SMap.put c.rot f (r.group.getD 0) } else c
  | none => c

/-- Read ports taken (R88). -/
def CoreState.takePorts (c : CoreState) (t n : Nat) : CoreState := { c with portsUsed := (t, c.portsAt t + n) }

/-- The DPE's queue operands: mark key and consumption code (R108). -/
def dpeCons (w f : Nat) : List (Nat × Nat) :=
  if cwDpeOp w = 1 ∧ !cwGang w then [(8 * f, field w 84 82), (8 * f + 1, field w 81 79)] else []

/-- The LE's queue operands that its operation reads (R106, R109). -/
def leCons (w f : Nat) : List (Nat × Nat) :=
  let op := cwLeOp w
  (if op = 0 then [] else [(8 * f + 2, field w 157 155)])
  ++ (if 1 ≤ op ∧ op ≤ 6 then [(8 * f + 3, field w 154 152)] else [])
  ++ (if op = 1 then [(8 * f + 4, field w 151 149)] else [])

/-- The counters take the advance's values, and engines that fire later in cycle `t` still see those before it; without an
advance they stay what they are in `real`. -/
def CoreState.setCtr (c real : CoreState) (t : Nat) (a : Option Advance) : CoreState :=
  match a with
  | some a => { c with ctr := a.ctr, ctrHeld := some (t, c.ctr) }
  | none => { c with ctr := real.ctr }

/-- Reason numbers of R517: 0 OPERAND, 1 ROOM, 2 STORE_PORT, 3 STORE_HAZARD. -/
def Sent.reason : Sent → Nat
  | .noSlot => 2
  | _ => 1

/-- Two sends of one firing; want of room is reported before want of a write slot. -/
def CoreState.sendBoth (c : CoreState) (first second : CoreState → Sent) : Sent :=
  match first c with
  | .ok c' => second c'
  | .noRoom => .noRoom
  | .noSlot => match second c with
    | .noRoom => .noRoom
    | _ => .noSlot

/-- The control token of an advance sent (R90, R95). -/
def CoreState.sendCtrl (c : CoreState) (w t : Nat) (a : Option Advance) (poison : Bool) : Sent :=
  match a.bind fun a => ctrlToken w c.ctr a poison with
  | some tok => c.send w (cwCtDest w) t (t + 1) false [tok]
  | none => .ok c

/-! ### Stray heads (R97) -/

/-- The operands that an engine reads, with the kind of token each takes. -/
def operandsOf (e : Engine) (w : Nat) : List (Nat × Wants) :=
  match e with
  | .dpe => if cwDpeOp w = 1 ∧ !cwGang w then [(cwDpeA w, .data), (cwDpeB w, .data)] else []
  | .le =>
    let op := cwLeOp w
    (if op = 0 then [] else [(field w 183 179, .data)])
    ++ (if 1 ≤ op ∧ op ≤ 6 then [(field w 178 174, .data)] else [])
    ++ (if op = 1 then [(field w 173 169, .data)] else [])
  | .ce =>
    let op := cwCeOp w
    (if op = 1 ∨ op = 2 then [(cwCtSrc w, .ctrl), (cwSrcD w, .data)] else [])
    ++ (if op = 2 then [(cwSrcE w, .data)] else [])

/-- The queues that a source code reads. -/
def CoreState.queuesOf (c : CoreState) (f w t src : Nat) : List Nat :=
  if src < 8 then [src] else if src < 12 then [2 * (src - 8), 2 * (src - 8) + 1]
  else if src = 12 then (c.groupQueue f w t).toList else []

/-- The first queue whose head an operand of the engine cannot take. -/
def CoreState.strayQueue (c : CoreState) (e : Engine) (f w t : Nat) : Option Nat :=
  let pairs := (operandsOf e w).flatMap fun o => (c.queuesOf f w t o.1).map fun q => (q, o.2)
  (firstSome (fun p => match c.head p.1 f t with | some tok => !p.2.takes tok | none => false) pairs).map (·.1)

/-! ### DPE (R100, R101, R122) -/

/-- The emission tokens of a slot's accumulators (R101). -/
def CoreState.emissionTokens (c : CoreState) (w : Nat) (lastEnd : Bool) : List Token :=
  let span := 2 ^ cwAccLog w
  let count := (span + 3) / 4
  (upto count).map fun m =>
    let vs := (upto (min 4 (span - 4 * m))).map fun i => c.accum ((cwAccBase w + 4 * m + i) % 16)
    { payload := BitVec.ofNat 128 (vs.foldr (fun v n => v.bits.toNat + n * 2 ^ 32) 0)
      poison := vs.any (·.poison)
      endBit := lastEnd && m + 1 == count }

/-- The emitted accumulators cleared; the lane engine still sees what was complete (R101, R126). -/
def CoreState.clearSpan (c : CoreState) (w t : Nat) : CoreState :=
  (upto (2 ^ cwAccLog w)).foldl (fun c i =>
    let a := (cwAccBase w + i) % 16
    { c with acc := SMap.put c.acc a {}, sums := c.sums ++ [(a, t + 6, c.accum a)] }) c

/-- The sum of a firing put into its accumulator (R77, R90, R100). -/
def CoreState.accumulate (c : CoreState) (i t bits : Nat) (poison : Bool) : CoreState :=
  let old := c.accum i
  { c with acc := SMap.put c.acc i ⟨BitVec.ofNat 32 bits, old.poison || poison⟩
           sums := (c.sums.filter fun e => decide (t < e.2.1)) ++ [(i, t + 6, old)] }

/-- An emission begins (R101, R76). -/
def CoreState.emit (c : CoreState) (w f t : Nat) : Sent :=
  let toks := c.emissionTokens w (c.carriedEnd.contains f)
  let c' := { c with carriedEnd := c.carriedEnd.filter (· != f) }
  match c'.send w (cwDpeDest w) t (t + 7) true toks with
  | .ok c' => .ok (if cwKeep w then c' else c'.clearSpan w t)
  | r => r

/-! ### Wraps (R87) -/

/-- Whether engine `e` has fired in cycle `t`. -/
def CoreState.firedIn (c : CoreState) (e t : Nat) : Bool := (SMap.getD c.turns e {}).cycle == t + 1

/-- The firing of engine `e` in cycle `t` remembered, with the operands whose heads it held. -/
def CoreState.noteTurn (c seen : CoreState) (e t : Nat) (wraps : List Nat) (xs : List Consumer) : CoreState :=
  { c with turns := SMap.put c.turns e ⟨t + 1, (xs.filter fun x => !x.takes seen wraps).map fun x => (x.key, x.read.heads.map (·.1))⟩ }

/-- The marks of the firing engine's own operands are used (R87). -/
def CoreState.clearMarks (c : CoreState) (own : List (Nat × Nat)) : CoreState :=
  { c with marks := c.marks.filter fun m => !(own.map (·.1)).contains m }

/-- END set on the last token of the LE's result of cycle `t` (R76). -/
def CoreState.endLeResult (c : CoreState) (t : Nat) : CoreState :=
  let isLast := fun (p : Landing × Nat) => p.1.fired == t && decide (t + 4 ≤ p.1.due)
  match firstSome isLast c.landing.zipIdx.reverse with
  | some (_, i) => { c with landing := c.landing.mapIdx fun j l => if j = i then { l with tok := { l.tok with endBit := true } } else l }
  | none => c

/-- END consumed by the DPE's firing of cycle `t` through another engine's wrap: it goes to the next emission, which it brings
about with `EMIT_LEVEL` 5, addressed by the counters of that firing (R76, R101); an emission of this very firing has it already. -/
def CoreState.endDpe (c : CoreState) (w f t : Nat) : CoreState :=
  if t + 1 < SMap.getD c.nextFire 0 0 then c
  else
    let c := { c with carriedEnd := if c.carriedEnd.contains f then c.carriedEnd else f :: c.carriedEnd }
    if cwEmit w = 5 then
      match (c.asOf t).emit w f t with
      | .ok x => { x with ctr := c.ctr, nextFire := SMap.put x.nextFire 0 (t + 1 + (2 ^ cwAccLog w + 3) / 4) }
      | _ => c
    else c

/-- A wrap reaches operand `key` of engine `e`, which fired in cycle `t` already: that firing consumes the head it held. -/
def CoreState.takeHeld (c : CoreState) (e f w t key : Nat) : CoreState :=
  let turn := SMap.getD c.turns e {}
  match firstSome (fun h => h.1 == key) turn.held with
  | none => c
  | some (_, qs) =>
    let ended := qs.any fun q => (firstSome (fun x => x.tok.fold.toNat == f) (c.queue q)).any (·.tok.endBit)
    let c := { c with queues := qs.foldl (fun m q => SMap.put m q (dropFold f (SMap.getD m q []))) c.queues
                      turns := SMap.put c.turns e { turn with held := turn.held.filter fun h => h.1 != key } }
    if !ended then c else if e = 0 then c.endDpe w f t else c.endLeResult t

/-- An operand is marked (R87). -/
def CoreState.mark (c : CoreState) (key : Nat) : CoreState :=
  if c.marks.contains key then c else { c with marks := c.marks ++ [key] }

/-- The operands of engine `e` in slot `f`, of word `w`, that a wrap of one of the counters reaches (R87). -/
def wrapHits (e f w : Nat) (wraps : List Nat) : List Nat :=
  ((if e = 0 then dpeCons w f else leCons w f).filter fun o => decide (1 ≤ o.2) && wraps.contains (o.2 - 1)).map (·.1)

/-- The wraps of a firing mark the operands of the other slots and those of the other engines `es`, or reach the firings of these
engines in the same cycle (R87). -/
def CoreState.wrapOthers (c : CoreState) (es : List Nat) (f w t : Nat) (wraps : List Nat) : CoreState :=
  let c := es.foldl (fun c e => (wrapHits e f w wraps).foldl (fun c key =>
      if c.firedIn e t then c.takeHeld e f w t key else c.mark key) c) c
  ((upto 8).filter (· != f)).foldl (fun c g => (wrapHits 0 g (c.word g) wraps ++ wrapHits 1 g (c.word g) wraps).foldl (·.mark ·) c) c

/-- The accumulator of a firing (R100): the counter's value before its tick, whichever slot owns the counter. -/
def CoreState.accIndex (c : CoreState) (w : Nat) : Nat :=
  (cwAccBase w + (SMap.getD c.ctr (cwAccLevel w) 0).toNat % 2 ^ cwAccLog w) % 16

/-- Whether engine `e` has yet to meet cycle `t`. -/
def CoreState.waits (c : CoreState) (e t : Nat) : Bool := decide (SMap.getD c.nextFire e 0 ≤ t)

/-- The read ports and the wraps of an attempt that fires. -/
def Attempt.reads : Attempt → Nat
  | .fired x => x.reads
  | _ => 0

def Attempt.wraps : Attempt → List Nat
  | .fired x => x.wraps
  | _ => []

/-- A DPE attempt in cycle `t`, with `peek` the counters that firings of the other engines in `t` wrap (R85, R122). -/
def dpeTry (peek : List Nat) (real : CoreState) (f w t : Nat) : Attempt :=
  let c := (wrapHits 0 f w peek).foldl (·.mark ·) (real.asOf t)
  if cwDpeOp w != 1 || cwGang w || (c.strayQueue .dpe f w t).isSome then .quiet
  else match pairingInfo (cwPairing w) (ofBool (bitAt w 119)) (ofBool (bitAt w 118)) with
    | none => .quiet
    | some (_, _, _, wa, _) =>
      match c.readSrc f w t (cwDpeA w) (wa == 32) .data, c.readSrc f w t (cwDpeB w) true .data with
      | some a, some b =>
        let cons := dpeCons w f
        let xs : List Consumer := [⟨a, field w 84 82, 8 * f⟩, ⟨b, field w 81 79, 8 * f + 1⟩]
        let (taken, ended, adv) := c.settle w (cwTick w == 0) xs 6 false
        let wraps := (adv.map (·.wraps)).getD []
        let i := c.accIndex w
        let poison := a.poison || b.poison
        let seen := poison || (c.accum i).poison
        let r := dot (cwPairing w) (ofBool (bitAt w 119)) (ofBool (bitAt w 118)) a.bits b.bits
          (c.accum i).bits.toNat (cwIntSat w)
        let emits := (decide (1 ≤ cwEmit w ∧ cwEmit w ≤ 4) && wraps.contains (cwEmit w - 1)) || (cwEmit w == 5 && ended)
        let c1 := c.accumulate i t r.acc poison
        let c1 := { c1 with carriedEnd := if ended && !c1.carriedEnd.contains f then f :: c1.carriedEnd else c1.carriedEnd }
        let ntok := (2 ^ cwAccLog w + 3) / 4
        match c1.sendBoth (fun c => if emits then c.emit w f t else .ok c) (·.sendCtrl w t adv seen) with
        | .ok c3 =>
            if c.portsAt t + storeReads [a, b] > 2 then .stalled 2
            else if c.hazard t [a, b] then .stalled 3
            else
              let c4 := ((((c3.consume f taken).setCtr real t adv).rotate f w [a, b]).takePorts t (storeReads [a, b])).clearMarks cons
              let c4 := (c4.noteTurn c 0 t wraps xs).wrapOthers [1] f w t wraps
              .fired { core := c4, poison := seen, overruns := (adv.map (·.overruns)).getD 0
                       exhausted := (adv.map (·.exhausted)).getD false
                       counts := (if r.overInt then [36] else []) ++ (if r.overFloat then [37] else [])
                         ++ (if r.voids then [38] else [])
                       next := t + 1 + (if emits then ntok else 0), reads := storeReads [a, b], wraps }
        | x => .stalled x.reason
      | _, _ => .stalled 0

/-! ### Lane engine (R127) -/

/-- Lane format of `LE_FMT`. -/
def leFmt (x : Nat) : Fmt := if x = 0 then .fp32 else if x = 1 then .bf16 else .fp16

/-- The LE's result over its lanes, `BCAST_B` using lane 0 of *b* throughout (R109, R127). -/
def leResult (w a b c : Nat) : Nat :=
  let f := leFmt (cwLeFmt w)
  let bits := fmtBits f
  let lanes := (if cwHalf w then 128 else 256) / bits
  let lane := fun x i => field x (bits * i + bits - 1) (bits * i)
  packElems f ((upto lanes).map fun i =>
    leLane f (cwLeOp w) (lane a i) (lane b (if cwBcast w then 0 else i)) (lane c i))

/-- Whether R409 withholds the lane engine in this cycle. -/
def State.leWithheld (s : State) (k : Nat) : Bool :=
  let r := s.now / 16
  let prev : Nat := (s.cl k).dpeRounds.foldl (fun n p => if p.1 + 1 = r then p.2 else n) 0
  decide (12288 ≤ prev) && decide (s.reg (pgClPower k) 0x40 10 % 16 ≤ s.phase)

/-- An LE attempt in cycle `t`, `busy` read ports being the DPE's (R85, R88, R127). -/
def leTry (busy k : Nat) (s : State) (real : CoreState) (f w t : Nat) : Attempt :=
  let op := cwLeOp w
  let c := real.asOf t
  if op = 0 ∨ 7 < op ∨ (c.strayQueue .le f w t).isSome then .quiet
  else
    let wide := !cwHalf w
    let ra := c.readSrc f w t (field w 183 179) wide .data
    let rb := if op = 7 then some {} else c.readSrc f w t (field w 178 174) (wide && !cwBcast w) .data
    let rc := if op = 1 then c.readSrc f w t (field w 173 169) wide .data else some {}
    match ra, rb, rc with
    | some a, some b, some d =>
      let cons := leCons w f
      let reads := [a, b, d]
      let xs := (cons.zip reads).map fun x => (⟨x.2, x.1.2, x.1.1⟩ : Consumer)
      let (taken, ended, adv) := c.settle w (cwTick w == 1) xs 6 false
      let wraps := (adv.map (·.wraps)).getD []
      let poison := reads.any (·.poison)
      let r := leResult w a.bits b.bits d.bits
      let toks : List Token :=
        if wide then [{ payload := BitVec.ofNat 128 r, poison }, { payload := BitVec.ofNat 128 (r / 2 ^ 128), poison, endBit := ended }]
        else [{ payload := BitVec.ofNat 128 r, poison, endBit := ended }]
      match c.sendBoth (·.send w (cwLeDest w) t (t + 4) false toks) (·.sendCtrl w t adv poison) with
      | .ok c2 =>
          if busy + c.portsAt t + storeReads reads > 2 then .stalled 2
          else if c.hazard t reads then .stalled 3
          else if s.leWithheld k then .withheld
          else
            let c3 := ((((c2.consume f taken).setCtr real t adv).rotate f w reads).takePorts t (storeReads reads)).clearMarks cons
            let c3 := (c3.noteTurn c 1 t wraps xs).wrapOthers [0] f w t wraps
            let d := cwLeDest w
            let c3 := if wide && decide (dCode d < 5) then { c3 with leWide := some (t, d / (if dCode d < 4 then 64 else 8)) } else c3
            .fired { core := c3, poison, overruns := (adv.map (·.overruns)).getD 0
                     exhausted := (adv.map (·.exhausted)).getD false
                     next := t + 1, reads := storeReads reads, wraps }
      | x => .stalled x.reason
    | _, _, _ => .stalled 0

/-! ### Control engine (R96 to R98) -/

/-- What a CE operation reads: the control token, the data, the destination; `none` where an operand is missing. -/
structure CeReads where
  ctrl : Option Read
  data : Read
  dest : Nat
deriving DecidableEq, Repr

/-- The operands of STEER (1), MERGE (2) and FORWARD (3) (R96, R97). -/
def ceReads (c : CoreState) (f w t : Nat) : Option CeReads :=
  if cwCeOp w = 3 then (c.readSrc f w t (cwSrcD w) false .both).map fun d => ⟨none, d, cwDestT w⟩
  else match c.readSrc f w t (cwCtSrc w) false .ctrl with
    | none => none
    | some ct =>
      let p := match ct.heads with | h :: _ => tokenPred h.2 (cwPredSel w) | [] => false
      let src := if cwCeOp w = 2 ∧ !p then cwSrcE w else cwSrcD w
      let dest := if cwCeOp w = 1 ∧ !p then cwDestF w else cwDestT w
      (c.readSrc f w t src false .data).map fun d => ⟨some ct, d, dest⟩

/-- The token that a CE operation sends (R76, R98). -/
def ceToken (w : Nat) (x : CeReads) (ended poison : Bool) : Token :=
  match x.data.heads with
  | h :: _ => { h.2 with ctrl := cwCeOp w == 3 && h.2.ctrl, endBit := ended, poison }
  | [] => { payload := BitVec.ofNat 128 x.data.bits, endBit := ended, poison }

/-- A CE attempt for operation `op` in cycle `t`, `busy` read ports being those of the DPE and the LE (R85, R88, R96). -/
def ceTry (busy op : Nat) (real : CoreState) (f w t : Nat) : Attempt :=
  let c := real.asOf t
  if cwCeOp w != op || (c.strayQueue .ce f w t).isSome then .quiet
  else match ceReads c f w t with
    | none => .stalled 0
    | some x =>
      let reads := x.ctrl.toList ++ [x.data]
      let span := SMap.getD c.span f 0
      let last := x.ctrl.isSome && decide (cwSpan w ≤ span)
      let fixed : List Consumer :=
        ⟨x.data, 0, 0⟩ :: (match x.ctrl with | some r => if last then [⟨r, 0, 0⟩] else [] | none => [])
      let ticks := cwTick w == 2 || (cwTick w == 3 && last)
      let (taken, ended, adv) := c.settle w ticks fixed 6 false
      let wraps := (adv.map (·.wraps)).getD []
      let poison := reads.any (·.poison)
      match c.sendBoth (·.send w x.dest t (t + 1) false [ceToken w x ended poison]) (·.sendCtrl w t adv poison) with
      | .ok c2 =>
          if busy + c.portsAt t + storeReads reads > 2 then .stalled 2
          else if c.hazard t reads then .stalled 3
          else
            let c3 := ((((c2.consume f taken).setCtr real t adv).rotate f w reads).takePorts t (storeReads reads)).wrapOthers [0, 1] f w t wraps
            let c3 := { c3 with span := if op = 3 then c.span else SMap.put c.span f (if last then 0 else span + 1) }
            .fired { core := c3, poison, overruns := (adv.map (·.overruns)).getD 0
                     exhausted := (adv.map (·.exhausted)).getD false, next := t + 1, reads := storeReads reads, wraps }
      | x => .stalled x.reason

/-! ### The order of a cycle (R87, R88): ports go to the DPE, then the LE, then the CE, whichever command comes first -/

/-- Read ports that the DPE's firing of cycle `t` will take. -/
def dpeBusy (real : CoreState) (f w t : Nat) : Nat := if real.waits 0 t then (dpeTry [] real f w t).reads else 0

/-- Read ports that the firings of the DPE and the LE in cycle `t` will take. -/
def leBusy (k : Nat) (s : State) (real : CoreState) (f w t : Nat) : Nat :=
  let b := dpeBusy real f w t
  b + (if real.waits 1 t then (leTry b k s real f w t).reads else 0)

/-- The counters that firings of the LE and the CE in cycle `t` will wrap, where an END so consumed would begin an emission that
needs room in the DPE's firing (R85, R101). -/
def dpePeek (k : Nat) (s : State) (real : CoreState) (f w t : Nat) : List Nat :=
  if cwEmit w != 5 then []
  else
    (if real.waits 1 t then (leTry (dpeBusy real f w t) k s real f w t).wraps else [])
      ++ (if real.waits 2 t then (ceTry (leBusy k s real f w t) (cwCeOp w) real f w t).wraps else [])

/-- The DPE's attempt in cycle `t`. -/
def dpeAttempt (k : Nat) (s : State) (real : CoreState) (f w t : Nat) : Attempt := dpeTry (dpePeek k s real f w t) real f w t

/-- The LE's attempt in cycle `t`. -/
def leAttempt (k : Nat) (s : State) (real : CoreState) (f w t : Nat) : Attempt := leTry (dpeBusy real f w t) k s real f w t

/-- The CE's attempt in cycle `t`. -/
def ceAttempt (op k : Nat) (s : State) (real : CoreState) (f w t : Nat) : Attempt := ceTry (leBusy k s real f w t) op real f w t

/-- DPE_FIRE (R122). -/
def execDpeFire (c : CoreId) (s : State) : Res := .next (s.opportunity c 0 (dpeAttempt c.k.val) takenQueues)

/-- LE_FIRE (R127). A cycle withheld by R409 counts in CL_POWER counter 3. -/
def execLeFire (c : CoreId) (s : State) : Res := .next (s.opportunity c 1 (leAttempt c.k.val) takenQueues)

/-- STEER (R96). -/
def execSteer (c : CoreId) (s : State) : Res := .next (s.opportunity c 2 (ceAttempt 1 c.k.val) takenQueues)

/-- MERGE (R96). -/
def execMerge (c : CoreId) (s : State) : Res := .next (s.opportunity c 2 (ceAttempt 2 c.k.val) takenQueues)

/-- FORWARD (R96). -/
def execForward (c : CoreId) (s : State) : Res := .next (s.opportunity c 2 (ceAttempt 3 c.k.val) takenQueues)

/-! ### Stray tokens (R97) -/

/-- The number of an engine. -/
def engineNum : Engine → Nat
  | .dpe => 0
  | .le => 1
  | .ce => 2

/-- STRAY_TOKEN (R97). The discard is no firing and takes no cycle of the engine (log 32). -/
def execStrayToken (c : CoreId) (e : Engine) (s : State) : Res :=
  .next (let k := c.k.val
         let n := (coreNum c)
         let s := s.modCore k n (·.settleSlack s.clock)
         let f := (s.cl k).activeFold
         let x := s.core k n
         let w := x.word f
         if !(s.roundOpen k && x.ready f s.clock) then s
         else match x.strayQueue e f w s.clock with
           | none => s
           | some q =>
             let s := s.modCore k n fun c => { c with queues := SMap.put c.queues q (dropFold f (c.queue q)) }
             (s.modCl k (·.freed n q f s.clock)).coreExc k n 1 q)

/-! ### Landings (R79, R90, R101, R167) -/

/-- The landing of least cycle, the first among equals. -/
def earliest : List Landing → Option (Nat × Landing)
  | [] => none
  | l :: ls => match earliest ls with
    | none => some (0, l)
    | some (i, m) => if m.due < l.due then some (i + 1, m) else some (0, l)

/-- The place of a landing among the arrivals of its cycle (R79, R90): results land 4 cycles after an LE firing, 1 after one of the
CE, and what the slot fabric delivers in the cycle itself. -/
def Landing.rank (l : Landing) : Nat := if l.due = l.fired then 0 else if l.due = l.fired + 1 then 3 else 2

/-- A landing reaches its queue, launch buffer or store entry. -/
def State.land (s : State) (k n rank : Nat) (l : Landing) : State :=
  match l.target with
  | .queue q => s.deliver k n q l.tok rank
  | .store e => s.modCore k n (·.writeEntry e l.due ⟨l.tok.payload, l.tok.poison⟩)
  | .port p slot route => s.modCore k n fun c =>
      { c with launch := SMap.put c.launch p (SMap.getD c.launch p [] ++ [⟨l.tok, slot, route, l.due⟩]) }

/-- DPE_EMISSION (R101): the next due emission token leaves the DPE in its cycle. -/
def execDpeEmission (c : CoreId) (s : State) : Res :=
  .next (match earliest (s.core c.k.val (coreNum c)).emissions with
    | none => s
    | some (i, l) =>
      let s := s.reachClock l.due
      let s := s.modCore c.k.val (coreNum c) fun x => { x with emissions := listDrop x.emissions i }
      (s.land c.k.val (coreNum c) 1 l).active c.k.val)

/-- TOKEN_ARRIVAL (R79): the next result or delivery in flight to the core lands in its cycle. -/
def execTokenArrival (c : CoreId) (s : State) : Res :=
  .next (match earliest (s.core c.k.val (coreNum c)).landing with
    | none => s
    | some (i, l) =>
      let s := s.reachClock l.due
      let s := s.modCore c.k.val (coreNum c) fun x => { x with landing := listDrop x.landing i }
      s.land c.k.val (coreNum c) l.rank l)

end Sys2Proof.Machine
end

