-- ==== Sys2Proof/Machine/Gang.lean ====
section
/-! DEFINITION. Gangs (spec/06): descriptor fields, the lattice feed, presenting rounds, drains and done tokens. -/
namespace Sys2Proof.Machine

/-! ### The gang descriptor (R148) -/

def gdValid (w : Nat) : Bool := bitAt w 63
def gdFold (w : Nat) : Nat := field w 62 60
def gdOrgI (w : Nat) : Nat := field w 59 57
def gdOrgJ (w : Nat) : Nat := field w 56 54
/-- R, the gang's height. -/
def gdR (w : Nat) : Nat := 4 * (field w 53 51 + 1)
/-- C, the gang's width. -/
def gdC (w : Nat) : Nat := 4 * (field w 50 48 + 1)
def gdPairing (w : Nat) : Nat := field w 47 44
def gdOrder (w : Nat) : Bool := bitAt w 40
def gdKs (w : Nat) : Nat := field w 39 24
def gdM (w : Nat) : Nat := field w 23 12
def gdN (w : Nat) : Nat := field w 11 0
def gdAHandle (w : Nat) : Nat := field w 127 122
def gdARow0 (w : Nat) : Nat := field w 121 109
def gdAStride (w : Nat) : Nat := field w 108 96
def gdBHandle (w : Nat) : Nat := field w 95 90
def gdBRow0 (w : Nat) : Nat := field w 89 77
def gdBStride (w : Nat) : Nat := field w 76 64
def gdMLast (w : Nat) : Nat := let v := field w 191 184; if v = 0 then 4 * gdR w else v
def gdNLast (w : Nat) : Nat := let v := field w 183 176; if v = 0 then 4 * gdC w else v
def gdDrainMode (w : Nat) : Nat := field w 175 174
def gdDrainFe (w : Nat) : Nat := field w 173 172
def gdTile (w b : Nat) : Nat := if bitAt w 169 then field w 171 170 ^^^ (b % 2) else field w 171 170
def gdDrainHandle (w : Nat) : Nat := field w 168 163
def gdDrainRow0 (w : Nat) : Nat := field w 162 150
def gdGateEn (w : Nat) : Bool := bitAt w 149
def gdGateQ (w : Nat) : Nat := field w 148 146
def gdDoneDest (w : Nat) : Nat := field w 145 136
def gdAWin (w : Nat) : Nat := field w 135 132
def gdBWin (w : Nat) : Nat := field w 131 128

/-- Blocks of the gang. -/
def gdBlocks (w : Nat) : Nat := gdM w * gdN w
/-- Block row and column of block `b` (R147). -/
def gdBlockOf (w b : Nat) : Nat × Nat :=
  if gdOrder w then (b % max 1 (gdM w), b / max 1 (gdM w)) else (b / max 1 (gdN w), b % max 1 (gdN w))
/-- The origin core. -/
def gdOrigin (w : Nat) : Nat := 32 * (4 * gdOrgI w) + 4 * gdOrgJ w
/-- Member cores with their gang coordinates. -/
def gdMembers (w : Nat) : List (Nat × Nat × Nat) :=
  (upto (gdR w)).flatMap fun i => (upto (gdC w)).map fun j => (gdOrigin w + 32 * i + j, i, j)
/-- Width of an A word in bytes (R146). -/
def gdAWidth (w : Nat) : Nat :=
  match pairingInfo (gdPairing w) (ofBool (bitAt w 43)) (ofBool (bitAt w 42)) with
  | some (_, _, _, wa, _) => wa
  | none => 32
/-- Rows of an A piece and of a B piece (R146). -/
def gdARows (w : Nat) : Nat := (4 * gdR w * gdAWidth w + 511) / 512
def gdBRows (w : Nat) : Nat := gdC w / 4
/-- The skew σ of R156. -/
def gdSkew (w : Nat) : Nat := (gdR w / 4 - 1) + (gdC w / 4 - 1)
/-- The unit of a ring's gate; 0 without a ring (R154). -/
def gdGateUnit (w : Nat) : Nat :=
  match [gdAWin w, gdBWin w].filter (· != 0) with
  | [] => 0
  | v :: vs => 2 ^ (vs.foldl min v - 1)
/-- Whether K-step `s` of a block needs a gate token (R154). -/
def gdGated (w s : Nat) : Bool :=
  gdGateEn w && (s == 0 || (gdGateUnit w != 0 && s % gdGateUnit w == 0))
/-- Handle row of a piece (R147). -/
def gdPieceRow (row0 stride win rows panel s : Nat) : Nat :=
  row0 + panel * stride + (if win = 0 then s else s % 2 ^ win) * rows

/-- The gang descriptor of fold `f`. -/
def ClusterState.gd (c : ClusterState) (f : Nat) : Nat := (SMap.getD c.gangDesc f 0).toNat

/-- The gang unit changed. -/
def ClusterState.modGang (c : ClusterState) (f : GangUnit → GangUnit) : ClusterState := { c with gang := f c.gang }

/-- One fold's gang changed. -/
def ClusterState.modGangFold (c : ClusterState) (f : Nat) (h : GangFold → GangFold) : ClusterState :=
  c.modGang fun g => { g with folds := SMap.mod g.folds f {} h }

/-- One fold's gang. -/
def ClusterState.gangFold (c : ClusterState) (f : Nat) : GangFold := SMap.getD c.gang.folds f {}

/-- Whether the gang of the active fold may work: a gang is there, and the region runs (R185, R195, R297). -/
def State.gangOpen (s : State) (k : Nat) : Bool :=
  let c := s.cl k
  gdValid (c.gd c.activeFold) && decide (c.bubbleEnd ≤ s.clock) && !c.frozen && !c.stopped && !c.isClosed
  && (match s.regionOf? k with
      | some (_, g) => g.state == .running || g.state == .draining
      | none => false)

/-! ### LATTICE_FEED_READ (R146, R147, R150, R154) -/

/-- The word at byte `off` of a piece, `n` bytes wide, with the poison of its 32 B word. -/
def State.pieceWord (s : State) (k row off n : Nat) : Word256 :=
  let r := (s.cl k).row k (row + off / 512)
  let o := off % 512
  ⟨BitVec.ofNat 256 (field r.data.toNat (8 * (o + n) - 1) (8 * o)), bitAt r.poison.toNat (o / 32)⟩

/-- `F` of the lattice's latest drain, once it can no longer move: for a drain into a handle from the grant of its last burst on
(R157, R158). -/
def ClusterState.drainF (c : ClusterState) : Option Nat :=
  match c.gang.run with
  | none => some c.gang.drainEnd
  | some r =>
    let w := c.gd r.fold
    if gdDrainMode w = 0 then some (r.start + 4 * gdC w)
    else
      let b := c.arb.burst 1
      if b.count < r.burst then none
      else some (if r.empty = 0 then b.ends + 1 else max (b.since + gdC w) b.ends + (r.empty - 1) * gdC w + 1)

/-- Whether a K-step's rows have landed by cycle `t`, 4 cycles after they were read (R150). -/
def ClusterState.hasLanded (c : ClusterState) (x : KStep) (t : Nat) : Bool :=
  match c.arb.movedAt 0 x.burst with
  | some e => decide (e + 4 ≤ t)
  | none => false

/-- What keeps a K-step from being presented in the round that begins in cycle `t` (R152): the counter of R164 for it. -/
def ClusterState.roundWait (c : ClusterState) (x : KStep) (t : Nat) : Option Nat :=
  let w := c.gd c.activeFold
  let g := c.gangFold c.activeFold
  if !c.hasLanded x t || x.block != g.block || x.step != g.step then some 41
  else if (gdMembers w).any (fun m => (c.core m.1).gates != 0) then some 42
  else if x.step + 1 == gdKs w && (c.gang.drain.isSome || !c.drainF.any (· ≤ t + 21)) then some 43
  else none

/-- Whether the idle bank can take another K-step (R150): it is empty, or the present cycle is the 5th or a later one before a round that,
as things stand, presents what it holds, so that the first row is read in the 4th. -/
def State.feedRoom (s : State) (k : Nat) : Bool :=
  match (s.cl k).gang.idle with
  | [] => true
  | [x] => decide (11 ≤ s.now % 16) && ((s.cl k).roundWait x (s.clock + 16 - s.now % 16)).isNone
      && decide ((s.now / 16 + 1) % 256 % 64 < s.pace k)
  | _ => false

/-- The gate of a K-step: `some s` when it may be read, a gate token having been consumed where one is due (R154). -/
def State.passGate (s : State) (k f w b st : Nat) : Option State :=
  let g := (s.cl k).gangFold f
  if !gdGated w st || g.gated.contains (b, st) then some s
  else
    let n := gdOrigin w
    match (s.core k n).head (gdGateQ w) f s.clock with
    | none => none
    | some tok =>
      let s := s.modCore k n fun c => { c with queues := SMap.put c.queues (gdGateQ w) (dropFold f (c.queue (gdGateQ w))) }
      some (s.modCl k fun c => (c.freed n (gdGateQ w) f s.clock).modGangFold f fun g =>
        { g with gated := g.gated ++ [(b, st)], gatePoison := if tok.poison then g.gatePoison ++ [b] else g.gatePoison })

/-- The K-step after (`b`, `st`). -/
def nextStep (w b st : Nat) : Nat × Nat := if st + 1 < gdKs w then (b, st + 1) else (b + 1, 0)

/-- LATTICE_FEED_READ (R150): the feed asks for the rows of the next K-step as one burst of requester 0. A suppressed round does not stop it
(R407). -/
def execLatticeFeedRead (k : Cl) (s : State) : Res :=
  .next (let s := s.settleArb k.val
         let f := (s.cl k.val).activeFold
         let w := (s.cl k.val).gd f
         let g := (s.cl k.val).gangFold f
         let b := g.feedBlock
         let st := g.feedStep
         if !(s.gangOpen k.val) || !(s.feedRoom k.val) || gdBlocks w ≤ b then s
         else match s.passGate k.val f w b st with
           | none => s.modCl k.val (·.modGang fun g => { g with gateWait := true })
           | some s =>
             let (bm, bn) := gdBlockOf w b
             let c := s.cl k.val
             let ra := (c.handle (gdAHandle w)).baseRow
               + gdPieceRow (gdARow0 w) (gdAStride w) (gdAWin w) (gdARows w) bm st
             let rb := (c.handle (gdBHandle w)).baseRow
               + gdPieceRow (gdBRow0 w) (gdBStride w) (gdBWin w) (gdBRows w) bn st
             let wa := gdAWidth w
             let a := (upto (4 * gdR w)).map fun i => s.pieceWord k.val ra (i * wa) wa
             let bs := (upto (4 * gdC w)).map fun i => s.pieceWord k.val rb (i * 32) 32
             let (b', st') := nextStep w b st
             let s := s.askRows k.val 0 [{ spans := [(ra, gdARows w), (rb, gdBRows w)], ready := s.clock }]
             s.modCl k.val fun c => (c.modGang fun g =>
               { g with gateWait := false, idle := g.idle ++ [⟨b, st, a, bs, c.arb.ticket 0⟩] }).modGangFold f fun g =>
               { g with feedBlock := b', feedStep := st' })

/-! ### GANG_ROUND (R151 to R153, R158, R161) -/

/-- What a member's firings of one round leave: accumulators, the counters 35 to 38, by R122 to R125. -/
structure MemberRound where
  acc : SMap AccWord
  sums : List (Nat × Nat × AccWord)
  poisoned : Nat := 0
  overInt : Nat := 0
  overFloat : Nat := 0
  voids : Nat := 0
deriving DecidableEq, Repr

/-- A word of a K-step. -/
def wordAt (ws : List Word256) (i : Nat) : Word256 := ws.getD i ⟨0, false⟩

/-- One firing of a member: slots `p` and `q` in the round that begins at `t0` (R145, R151). -/
def memberFire (w t0 i j : Nat) (x : KStep) (m : MemberRound) (pq : Nat) : MemberRound :=
  let p := pq / 4
  let q := pq % 4
  let a := wordAt x.a (p * gdR w + i)
  let b := wordAt x.b (q * gdC w + j)
  let old := SMap.getD m.acc pq {}
  let r := dot (gdPairing w) (ofBool (bitAt w 43)) (ofBool (bitAt w 42)) a.bits.toNat b.bits.toNat old.bits.toNat (bitAt w 41)
  let poison := a.poison || b.poison
  { acc := SMap.put m.acc pq ⟨BitVec.ofNat 32 r.acc, old.poison || poison⟩
    sums := m.sums ++ [(pq, t0 + pq + i / 4 + j / 4 + 6, old)]
    poisoned := m.poisoned + ofBool (poison || old.poison)
    overInt := m.overInt + ofBool r.overInt
    overFloat := m.overFloat + ofBool r.overFloat
    voids := m.voids + ofBool r.voids }

/-- The sixteen firings of member (i, j) with state `c`. -/
def memberRound (w t0 i j : Nat) (x : KStep) (c : CoreState) : MemberRound :=
  (upto 16).foldl (memberFire w t0 i j x) ⟨c.acc, c.sums.filter (fun e => decide (t0 < e.2.1)), 0, 0, 0, 0⟩

/-- The drain banks take the finished block's sums; accumulator `n` reads as zero from the cycle after its final firing, in
cycle `first` + `n` (R153, R154). -/
def CoreState.toBank (c : CoreState) (gatePoison : Bool) (first : Nat) : CoreState :=
  { c with bank := (upto 16).map fun n => (n, let v := c.accum n; { v with poison := v.poison || gatePoison }), acc := []
           sums := c.sums.map fun e => (e.1, min e.2.1 (first + e.1 + 1), e.2.2) }

/-- Member counters and exceptions of a round (R77, R105, R123 to R125). -/
def State.countMember (s : State) (k n : Nat) (m : MemberRound) : State :=
  let s := if 0 < m.poisoned then (s.coreExc k n 4 0).count (pgClCtrl k) 35 (m.poisoned - 1) else s
  ((s.count (pgClCtrl k) 36 m.overInt).count (pgClCtrl k) 37 m.overFloat).count (pgClCtrl k) 38 m.voids

/-- A presenting round of K-step `x` (R151). -/
def State.presentStep (s : State) (k f w : Nat) (x : KStep) : State :=
  let t0 := s.clock
  let last := x.step + 1 == gdKs w
  let gp := ((s.cl k).gangFold f).gatePoison.contains x.block
  let s := (gdMembers w).foldl (fun s m =>
    let c := s.core k m.1
    let r := memberRound w t0 m.2.1 m.2.2 x c
    let c := { c with acc := r.acc, sums := r.sums, firedBeat := s.beats + 1 }
    (s.modCore k m.1 fun _ => if last then c.toBank gp (t0 + m.2.1 / 4 + m.2.2 / 4) else c).countMember k m.1 r) s
  let (b', st') := nextStep w x.block x.step
  let s := s.modCl k fun c =>
    { ((c.modGang fun g =>
        { g with idle := g.idle.drop 1, lastFold := f, phase := 1, kstep := x.step, lastBlock := x.block
                 drain := if last then some (f, x.block, t0 + 16 + 6 + gdSkew w) else g.drain }).modGangFold f fun g =>
        { g with block := b', step := st', isOpen := !last }) with
      firedBeat := s.beats + 1, activeBeat := s.beats + 1 }
  (s.modCl k (·.countDpe (s.now / 16) (16 * (gdMembers w).length))).count (pgClCtrl k) 40 1

/-- An idle round, counted in counter `c` of R164. -/
def State.idleRound (s : State) (k c : Nat) : State :=
  (s.modCl k (·.modGang fun g => { g with phase := 2 })).count (pgClCtrl k) c 1

/-- GANG_ROUND (R152, R158): the next round boundary of the active fold's gang. Where several causes keep the round idle, it counts for the
first in the order missing rows, gated member, drain; rows that land in the boundary's own cycle have landed (log 32). -/
def execGangRound (k : Cl) (s : State) : Res :=
  .next (let t := max s.clock (s.cl k.val).gang.nextRound
         let s := ((s.reachClock t).reachBoundary 16).settleArb k.val
         let s := s.modCl k.val (·.modGang fun g => { g with nextRound := s.clock + 16, phase := if g.phase = 3 then 3 else 0 })
         let c := s.cl k.val
         let f := c.activeFold
         let w := c.gd f
         if !(s.gangOpen k.val) || gdBlocks w ≤ (c.gangFold f).block then s
         else if s.suppressed k.val then s.idleRound k.val 41
         else match c.gang.idle with
           | [] => s.idleRound k.val (if c.gang.gateWait then 42 else 41)
           | x :: _ => match c.roundWait x s.clock with
             | some i => s.idleRound k.val i
             | none => s.presentStep k.val f w x)

/-! ### GANG_DRAIN (R156, R157) -/

/-- Rows and columns of a block that are not masked (R155). -/
def gdShape (w b : Nat) : Nat × Nat :=
  let (bm, bn) := gdBlockOf w b
  (if bm + 1 = gdM w then gdMLast w else 4 * gdR w, if bn + 1 = gdN w then gdNLast w else 4 * gdC w)

/-- Element (m, n) of a finished block, out of the drain banks (R145). -/
def ClusterState.drained (c : ClusterState) (w m n : Nat) : AccWord :=
  let core := gdOrigin w + 32 * (m % gdR w) + n % gdC w
  SMap.getD (c.core core).bank (4 * (m / gdR w) + n / gdC w) {}

/-- A tile that a drain begins to fill, with the unmasked elements of the block (R157, R265). -/
def Tile.fill (t : Tile) (c : ClusterState) (w b clock : Nat) : Tile :=
  let (rows, cols) := gdShape w b
  { t with state := .filling, since := clock
           data := (upto rows).foldl (fun d m => (upto cols).foldl (fun d n => SMap.put d (128 * m + n) (c.drained w m n)) d) t.data }

/-- A drained block row as a row of row memory (R157). -/
def ClusterState.drainRow (c : ClusterState) (w b m : Nat) : Row :=
  let cols := (gdShape w b).2
  (upto cols).foldl (fun r n =>
    let v := c.drained w m n
    { data := r.data ||| BitVec.ofNat 4096 (v.bits.toNat <<< (32 * n))
      poison := if v.poison then r.poison ||| BitVec.ofNat 16 (2 ^ (n / 8)) else r.poison }) {}

/-- Whether a gang has drained every block and sent every done token (R159). -/
def gangComplete (w : Nat) (g : GangFold) : Bool :=
  g.drained == gdBlocks w && (dCode (gdDoneDest w) == 7 || g.doneSent == gdBlocks w)

/-- The completion of a gang is signalled (R163, R164). -/
def State.noteGang (s : State) (k f w : Nat) : State :=
  if gangComplete w ((s.cl k).gangFold f) then
    (s.modCl k (·.modGang fun g => { g with phase := 3 })).pulse (pgClCtrl k) 14
  else s

/-- Tile `t` of FE `u` changed. -/
def ClusterState.modTile (c : ClusterState) (u t : Nat) (f : Tile → Tile) : ClusterState :=
  { c with fes := SMap.mod c.fes u {} fun x => { x with tiles := SMap.mod x.tiles t {} f } }

/-- The bursts of a drain into a handle from row `first`: a group of R rows each time C drain cycles are over, its unmasked rows in one burst
(R157). -/
def drainBursts (w first start rows : Nat) : List RowRequest :=
  (upto 4).filterMap fun p =>
    let n := min (gdR w) (rows - p * gdR w)
    if n = 0 then none
    else some { spans := [(first + p * gdR w, n)], write := true, ready := start + gdC w - 1, step := if p = 0 then 0 else gdC w }

/-- The drain of a finished block begins now: into its tile, or with bursts of requester 1 (R156, R157, R265). -/
def State.startDrain (s : State) (k f b : Nat) : State :=
  let c := s.cl k
  let w := c.gd f
  let run : DrainRun := { fold := f, block := b, start := s.clock }
  let begin := fun (r : DrainRun) (c : ClusterState) => c.modGang fun g => { g with drain := none, run := some r }
  if gdDrainMode w = 0 then s.modCl k fun c => begin run (c.modTile (gdDrainFe w) (gdTile w b) (·.fill c w b s.clock))
  else
    let (rows, _) := gdShape w b
    let first := (c.handle (gdDrainHandle w)).baseRow + gdDrainRow0 w + b * (4 * gdR w)
    let qs := drainBursts w first s.clock rows
    (s.askRows k 1 qs).modCl k fun c => begin
      { run with rows := (upto rows).map (fun m => (first + m, c.drainRow w b m)), burst := c.arb.ticket 1, empty := 4 - qs.length } c

/-- The drain that runs has reached its target in cycle `at_`, having ended in cycle `fin` (R157, R159). -/
def State.endDrain (s : State) (k : Nat) (r : DrainRun) (fin at_ : Nat) : State :=
  let w := (s.cl k).gd r.fold
  let s := (s.reachClock at_).modCl k fun c =>
    let c := if gdDrainMode w = 0 then c.modTile (gdDrainFe w) (gdTile w r.block) fun t => { t with state := .ready, since := at_ }
      else r.rows.foldl (fun c x => c.setRow x.1 x.2) c
    (c.modGang fun g =>
      { g with run := none, drainEnd := fin
               doneDue := if dCode (gdDoneDest w) = 7 then g.doneDue else g.doneDue ++ [(r.fold, r.block, at_)] }).modGangFold r.fold
      fun g => { g with drained := g.drained + 1 }
  ((s.count (pgClCtrl k) 45 1).active k).noteGang k r.fold w

/-- GANG_DRAIN (R156, R157): a finished block's drain begins, once its tile is FREE; a drain that runs reaches its target: the tile at
F + 2, a handle at F. The deadlock watch holds the lanes (R162). -/
def execGangDrain (k : Cl) (s : State) : Res :=
  .next (let k := k.val
         let s := s.settleArb k
         let c := s.cl k
         if c.frozen then s
         else match c.gang.run with
           | some r => match c.drainF with
             | none => s
             | some fin => s.endDrain k r fin (if gdDrainMode (c.gd r.fold) = 0 then fin + 2 else fin)
           | none => match c.gang.drain with
             | none => s
             | some (f, b, d) =>
               let w := c.gd f
               let tile := SMap.getD (SMap.getD c.fes (gdDrainFe w) {}).tiles (gdTile w b) {}
               if !c.gang.doneDue.isEmpty || (gdDrainMode w == 0 && tile.state != .free) then s
               else (s.reachClock (if gdDrainMode w = 0 then max d (tile.since + 1) else d)).startDrain k f b)

/-! ### DONE_TOKEN (R159) -/

/-- DONE_TOKEN (R159): the origin core sends the oldest done token once there is room. -/
def execDoneToken (k : Cl) (s : State) : Res :=
  .next (match (s.cl k.val).gang.doneDue with
    | [] => s
    | (f, b, due) :: rest =>
      let s := s.reachClock due
      let c := s.cl k.val
      let w := c.gd f
      let last := b + 1 == gdBlocks w
      let tok : Token := { payload := controlPayload b 3 (b == 0) last last, ctrl := true, endBit := last }
      let n := gdOrigin w
      match (c.core n).send ((c.core n).word f) (gdDoneDest w) s.clock (s.clock + 1) false [tok] with
      | .ok x =>
        if c.frozen then s
        else
          let s := s.modCl k.val fun c => ((c.modCore n fun _ => x).modGang fun g => { g with doneDue := rest }).modGangFold f fun g =>
            { g with doneSent := g.doneSent + 1 }
          (s.active k.val).noteGang k.val f w
      | _ => s)

/-! ### Leaving a gang's fold (R160, R162) -/

/-- The fold switches away from fold `f`: an open block is abandoned, the idle bank emptied (R160). -/
def State.leaveGang (s : State) (k f : Nat) : State :=
  let c := s.cl k
  let w := c.gd f
  if !gdValid w then s
  else
    let isOpen := (c.gangFold f).isOpen
    let s := s.modCl k fun c => (c.modGang fun g => { g with idle := [], gateWait := false, phase := if g.phase = 3 then 3 else 0 }).modGangFold f
      fun g => { g with isOpen := false, step := 0, feedBlock := g.block, feedStep := 0 }
    if isOpen then
      let s := (gdMembers w).foldl (fun s m => s.modCore k m.1 fun c => { c with acc := [], sums := [] }) s
      (s.pulse (pgClCtrl k) 13).count (pgClCtrl k) 44 1
    else s

/-- A cluster's gang state discarded; what GANG_STATUS and GANG_POS report of the last block stays (R162, R163). -/
def ClusterState.dropGang (c : ClusterState) : ClusterState :=
  { c with gang := { lastFold := c.gang.lastFold, lastBlock := c.gang.lastBlock, kstep := c.gang.kstep }
           cores := SMap.mapAll c.cores fun x => { x with bank := [] } }

/-- The gang state of cluster `k` discarded, and what its feed and drain ask of row memory (R162). -/
def State.dropGang (s : State) (k : Nat) : State := (s.dropRequests k [0, 1] true).modCl k (·.dropGang)

end Sys2Proof.Machine
end

