-- ==== Sys2Proof/Machine/Feeds.lean ====
section
/-! DEFINITION. What feeds a queue share: the destination fields that a slot uses (R168), loopback, notifiers, streams. -/
namespace Sys2Proof.Machine

/-- The destination fields that a slot uses (R168), `gang` being its fold's gang descriptor where that is the origin core's. -/
def usedDests (w : Nat) (gang : Option Nat) : List Nat :=
  (if cwDpeOp w = 1 ∧ cwEmit w ≠ 0 ∧ !cwGang w then [cwDpeDest w] else [])
    ++ (if cwLeOp w ≠ 0 then [cwLeDest w] else [])
    ++ (if 1 ≤ cwCeOp w ∧ cwCeOp w ≤ 3 then [cwDestT w] else [])
    ++ (if cwCeOp w = 1 then [cwDestF w] else [])
    ++ (if cwCtEmit w ≠ 0 then [cwCtDest w] else [])
    ++ (match gang with
        | some g => if gdValid g && dCode (gdDoneDest g) != 7 then [gdDoneDest g] else []
        | none => [])

/-- The destinations that a slot word and its gang use, with loopback to (`q`, `f`) among them. -/
def loopsTo (w : Nat) (gang : Option Nat) (q f : Nat) : Bool :=
  cwValid w && (usedDests w gang).any fun d => dCode d == 4 && dQueue d == q && dFold d == f

/-- The gang descriptor of fold `g` for core `n`, when `n` is its origin core. -/
def ClusterState.gangOf (c : ClusterState) (n g : Nat) : Option Nat :=
  let w := c.gd g
  if gdValid w && gdOrigin w == n then some w else none

/-- Whether a slot of core `n` loops into share (`q`, `f`). -/
def ClusterState.loopsInto (c : ClusterState) (n q f : Nat) : Bool :=
  (upto 8).any fun g => loopsTo ((c.core n).word g) (c.gangOf n g) q f

/-- Whether share (`q`, `f`) of core `n` is fed by a route's local delivery, a loopback, a notifier or a running stream (R292). -/
def ClusterState.isFed (c : ClusterState) (n q f : Nat) : Bool :=
  (routeFeeding ((c.core n).word f) q).isSome || c.loopsInto n q f || (c.notifierOf n q f).isSome || (c.loaderOf n q f).isSome

end Sys2Proof.Machine
end

