-- ==== Sys2Proof/Machine/Census.lean ====
section
/-! DEFINITION. The conversion word of a stream (R130, R131) and the clip census of streams and finishing engines (R137 to R139). -/
namespace Sys2Proof.Machine

/-! ### The conversion word (R130), as a number of 64 bits -/

def cvSrc (w : Nat) : Nat := field w 63 60
def cvDst (w : Nat) : Nat := field w 59 56
def cvRound (w : Nat) : Nat := field w 55 54
def cvSat (w : Nat) : Bool := bitAt w 53
def cvShav (w : Nat) : Bool := bitAt w 52
def cvShavBf (w : Nat) : Bool := bitAt w 51
def cvMask (w : Nat) : Nat := field w 50 47
def cvEvt (w : Nat) : Nat := field w 46 42
def cvAbt (w : Nat) : Nat := field w 41 37
def cvEn (w : Nat) : Bool := bitAt w 36
def cvMix (w : Nat) : Bool := bitAt w 32
def cvSeed (w : Nat) : Nat := field w 31 0

/-- Whether R131 refuses a conversion word. -/
def cvRefused (w : Nat) : Bool :=
  field w 35 33 != 0
    || (if cvEn w then (fmtOfCode (cvSrc w)).isNone || (fmtOfCode (cvDst w)).isNone || cvRound w == 3
        else cvShav w)

/-! ### The census -/

/-- A 32-bit count, saturating (R137). -/
def satCount (n : Nat) : Nat := min (n + 1) (2 ^ 32 - 1)

/-- An element counted in its census kind. -/
def CensusCounts.add (c : CensusCounts) : Option Census → CensusCounts
  | some .saturation => { c with sat := satCount c.sat }
  | some .flush => { c with flush := satCount c.flush }
  | some .void => { c with void := satCount c.void }
  | some .nan => { c with nan := satCount c.nan }
  | none => c

/-- The masked total (R138). -/
def CensusCounts.total (c : CensusCounts) (mask : Nat) : Nat :=
  (if bitAt mask 0 then c.sat else 0) + (if bitAt mask 1 then c.flush else 0)
    + (if bitAt mask 2 then c.void else 0) + (if bitAt mask 3 then c.nan else 0)

/-- Whether a total reaches threshold 2^`log`; 31 never (R130). -/
def reachesLog (total log : Nat) : Bool := log != 31 && decide (2 ^ log ≤ total)

/-- A census that runs: its counts, whether the event threshold was reached, and the threshold element of an abort. -/
structure CensusRun where
  counts : CensusCounts := {}
  event : Bool := false
  abort : Option Nat := none
deriving DecidableEq, Repr

/-- Element `n` counted, unless the stream has stopped (R138, R139). -/
def CensusRun.add (r : CensusRun) (mask evt abt n : Nat) (k : Option Census) : CensusRun :=
  if r.abort.isSome then r
  else
    let c := r.counts.add k
    let t := c.total mask
    { counts := c, event := r.event || reachesLog t evt, abort := if reachesLog t abt then some n else none }

end Sys2Proof.Machine
end

