-- ==== Sys2Proof/Machine/Stream.lean ====
section
/-! DEFINITION. The stream unit (R288 to R295), ring posts (R293, R319), and the answers to memory requests (R284, R285). -/
namespace Sys2Proof.Machine

/-! ### The descriptor (R289), a number of 1,024 bits -/

def sdConv (w : Nat) : Nat := field w 1023 960
def sdCompAddr (w : Nat) : Nat := field w 959 912
def sdCompHandle (w : Nat) : Nat := field w 911 906
def sdCompRow (w : Nat) : Nat := field w 905 893
def sdCompKind (w : Nat) : Nat := field w 892 891
def sdAddr (w : Nat) : Nat := field w 511 464
def sdS3 (w : Nat) : Int := signedOf (field w 463 424) 40
def sdS2 (w : Nat) : Int := signedOf (field w 423 384) 40
def sdS1 (w : Nat) : Int := signedOf (field w 383 344) 40
def sdN3 (w : Nat) : Nat := field w 343 328
def sdN2 (w : Nat) : Nat := field w 327 312
def sdN1 (w : Nat) : Nat := field w 311 296
def sdRun (w : Nat) : Nat := field w 295 272
def sdQCore (w : Nat) : Nat := 32 * field w 271 267 + field w 266 262
def sdQueue (w : Nat) : Nat := field w 261 259
def sdFold (w : Nat) : Nat := field w 258 256
def sdWaitCount (w : Nat) : Nat := field w 95 64
def sdOp (w : Nat) : Nat := field w 63 60
def sdSlot (w : Nat) : Nat := field w 59 56
def sdArrive (w : Nat) : Bool := bitAt w 55
def sdAlign (w : Nat) : Bool := bitAt w 54
def sdRelease (w : Nat) : Bool := bitAt w 53
def sdWaitEn (w : Nat) : Bool := bitAt w 52
def sdHint (w : Nat) : Nat := field w 51 50
def sdHandle (w : Nat) : Nat := field w 49 44
def sdRow (w : Nat) : Nat := field w 43 31
def sdWaitHandle (w : Nat) : Nat := field w 30 25

/-- LOAD or LOAD_Q. -/
def sdLoads (w : Nat) : Bool := decide (sdOp w ≤ 2)
/-- Source and destination formats of the conversion, and the bits per element on each side (R290). -/
def sdSrcFmt (w : Nat) : Fmt := (fmtOfCode (cvSrc (sdConv w))).getD .uint8
def sdDstFmt (w : Nat) : Fmt := (fmtOfCode (cvDst (sdConv w))).getD .uint8
def sdSrcBits (w : Nat) : Nat := if cvEn (sdConv w) then fmtBits (sdSrcFmt w) else 8
def sdDstBits (w : Nat) : Nat := if cvEn (sdConv w) then fmtBits (sdDstFmt w) else 8
/-- `b` of the memory side and `b'` of the row side. -/
def sdMemBits (w : Nat) : Nat := if sdLoads w then sdSrcBits w else sdDstBits w
def sdRowBits (w : Nat) : Nat := if sdLoads w then sdDstBits w else sdSrcBits w
/-- Runs, elements, row-side rows per aligned run, row-side rows. -/
def sdRuns (w : Nat) : Nat := sdN1 w * sdN2 w * sdN3 w
def sdElems (w : Nat) : Nat := sdRun w * sdRuns w
def sdRunRows (w : Nat) : Nat := (sdRun w * sdRowBits w + 4095) / 4096
/-- The 8 bytes that POST adds to every row-side offset. -/
def sdGap (w : Nat) : Nat := if sdOp w = 4 then 64 else 0
def sdRows (w : Nat) : Nat :=
  if sdAlign w then (4096 * ((sdRuns w - 1) * sdRunRows w) + sdGap w + sdRun w * sdRowBits w + 4095) / 4096
  else (sdGap w + sdElems w * sdRowBits w + 4095) / 4096
/-- Tokens of a LOAD_Q: the row-side byte stream in pieces of 16 B (R292). -/
def sdTokens (w : Nat) : Nat :=
  if sdAlign w then 32 * ((sdRuns w - 1) * sdRunRows w) + (sdRun w * sdRowBits w + 127) / 128
  else (sdElems w * sdRowBits w + 127) / 128
/-- Row-side bit of element `n` (R290). -/
def sdRowBit (w n : Nat) : Nat :=
  sdGap w + (if sdAlign w then 4096 * (n / sdRun w * sdRunRows w) + n % sdRun w * sdRowBits w else n * sdRowBits w)
/-- Memory-side address of run `r`, exact (R290). -/
def sdBase (w r : Nat) : Int :=
  sdAddr w + sdS1 w * (r % sdN1 w : Nat) + sdS2 w * (r / sdN1 w % sdN2 w : Nat) + sdS3 w * (r / sdN1 w / sdN2 w : Nat)
/-- Memory-side bytes of a run. -/
def sdRunBytes (w : Nat) : Nat := (sdRun w * sdMemBits w + 7) / 8
/-- Bytes per residual, and companion rows (R136). -/
def sdCompBytes (w : Nat) : Nat := if cvShavBf (sdConv w) then 2 else 1
def sdCompRows (w : Nat) : Nat := (sdElems w * sdCompBytes w + 511) / 512

/-! ### Checks (R131, R136, R291 to R294) -/

/-- Whether a descriptor passes R294, and R228 for the handle it waits on. -/
def ClusterState.streamOk (c : ClusterState) (w : Nat) : Bool :=
  let h := c.handle (sdHandle w)
  let cv := sdConv w
  let comp := c.handle (sdCompHandle w)
  decide (1 ≤ sdOp w ∧ sdOp w ≤ 4) && sdCompKind w != 3 && sdHint w != 3 && sdRun w != 0 && sdN1 w != 0 && sdN2 w != 0
    && sdN3 w != 0 && field w 890 512 == 0 && field w 255 96 == 0 && field w 24 0 == 0
    && !cvRefused cv && !(cvShav cv && sdCompKind w == 0)
    && (!cvShav cv || sdCompKind w != 1 || comp.covers (sdCompRow w) (sdCompRows w))
    && h.covers (sdRow w) (sdRows w)
    && (!sdRelease w || (sdOp w == 3 && h.isRing && sdRow w == (SMap.getD c.rings (sdHandle w) {}).head))
    && (sdLoads w || sdRun w * sdMemBits w % 8 == 0)
    && !(sdLoads w && h.valid && h.isRing)
    && (!sdWaitEn w || (c.handle (sdWaitHandle w)).valid)
    && (sdOp w != 2 || !c.isFed (sdQCore w) (sdQueue w) (sdFold w))

/-! ### Requests (R291) -/

/-- The length of the next request: to the end of a 2 KiB block; a store that fills no whole words stays in a 512 B block, so
that its mask holds (R315). -/
def cutLen (isStore : Bool) (a rem : Nat) : Nat :=
  let l := min rem (2048 - a % 2048)
  if isStore && !(a % 32 == 0 && l % 32 == 0) then min rem (512 - a % 512) else l

/-- The requests of a run of `rem` bytes from address `a`; `num` the next number. -/
def cutRun (isStore : Bool) : (fuel num a rem : Nat) → List Piece
  | 0, _, _, _ => []
  | fuel + 1, num, a, rem =>
    if rem = 0 then []
    else
      let l := cutLen isStore a rem
      ⟨num, a, l, [], []⟩ :: cutRun isStore fuel (num + 1) (a + l) (rem - l)

/-- An address as a number; one outside the 48-bit space is a number beyond it, which R272 refuses. -/
def addrNat (a : Int) : Nat := if a < 0 then 2 ^ 48 else a.toNat

/-- All requests of a descriptor in element order. -/
def sdPieces (w : Nat) : List Piece :=
  (upto (sdRuns w)).foldl (fun ps r =>
    ps ++ cutRun (!sdLoads w) (sdRunBytes w / 512 + 2) ps.length (addrNat (sdBase w r)) (sdRunBytes w)) []

/-- A memory-side request's destination endpoint (R310, R316); `none` for an unassigned address. -/
def memEndpoint (a : Nat) : Option (BitVec 16) :=
  match placeOf a with
  | .hbm stack _ => some (epMem (stack / 3) 0)
  | .lpddr pkg _ => some (epIo (pkg / 8) (13 + pkg % 8))
  | .host _ => some (epIo 0 12)
  | .rowWindow k _ _ => some (epCluster k 3)
  | .unassigned => none

/-- The class of cluster `k`'s task (R313). -/
def State.taskLc (s : State) (k : Nat) : Bool :=
  match s.regionOf? k with
  | some (_, g) => match g.task with | some t => t.lc | none => false
  | none => false

/-! ### Elements (R128, R135, R290) -/

/-- A converted element of a stream: its code, its poison, and its residual. -/
structure StreamElem where
  code : Nat
  poison : Bool
  shaving : Nat
deriving DecidableEq, Repr

/-- The stream's elements converted in order: codes and poison in, elements and census out; at an abort the elements before the
threshold element (R139). -/
def convertStream (k w : Nat) (xs : List (Nat × Bool)) : List StreamElem × CensusRun :=
  let cv := sdConv w
  if !cvEn cv then (xs.map fun x => ⟨x.1, x.2, 0⟩, {})
  else
    let sigma := streamSigma (cvSeed cv) k (cvMix cv)
    let r := xs.zipIdx.foldl (fun (acc : List StreamElem × CensusRun) x =>
      if acc.2.abort.isSome then acc
      else
        let e := convertElem (sdSrcFmt w) (sdDstFmt w) (cvRound cv) (cvSat cv) (randomWord sigma x.2) x.1.1
        (⟨e.code, x.1.2, residual (cvShavBf cv) e.orig e.result⟩ :: acc.1,
          acc.2.add (cvMask cv) (cvEvt cv) (cvAbt cv) x.2 e.census)) ([], {})
    (r.1.reverse.take (r.2.abort.getD r.1.length), r.2)

/-- Elements of `b` bits cut out of bytes. -/
def elemsOfBytes (b : Nat) (bs : List (Byte × Bool)) (n : Nat) : List (Nat × Bool) :=
  let w := ofBytes (bs.map (·.1))
  (upto n).map fun i =>
    (field w (b * i + b - 1) (b * i), ((bs.drop (b * i / 8)).take ((b * i + b - 1) / 8 + 1 - b * i / 8)).any (·.2))

/-- Bytes that elements of `b` bits fill, the last padded with zero (R113); a byte is poisoned with any element in it. -/
def bytesOfElems (b : Nat) (xs : List (Nat × Bool)) : List (Byte × Bool) :=
  let w := xs.foldr (fun x n => x.1 % 2 ^ b + n * 2 ^ b) 0
  (upto ((xs.length * b + 7) / 8)).map fun j =>
    (BitVec.ofNat 8 (w >>> (8 * j)), ((xs.drop (8 * j / b)).take ((8 * j + 7) / b + 1 - 8 * j / b)).any (·.2))

/-- Bytes padded with zero to a multiple of `m`. -/
def padTo (m : Nat) (bs : List (Byte × Bool)) : List (Byte × Bool) :=
  bs ++ List.replicate ((m - bs.length % m) % m) (0, false)

/-- A list cut into pieces of `n`, `fuel` of them at most. -/
def chunks {α : Type} (n : Nat) : (fuel : Nat) → List α → List (List α)
  | 0, _ => []
  | fuel + 1, xs => if xs.isEmpty then [] else xs.take n :: chunks n fuel (xs.drop n)

/-- The row-side byte stream of loaded elements (R290): runs aligned to rows where ROW_ALIGN says so. -/
def rowStream (w : Nat) (xs : List (Nat × Bool)) : List (Byte × Bool) :=
  if sdAlign w then
    let runs := chunks (sdRun w) (sdRuns w) xs
    (runs.zipIdx.map fun r =>
      let bs := bytesOfElems (sdRowBits w) r.1
      if r.2 + 1 < runs.length then padTo 512 bs else bs).flatten
  else bytesOfElems (sdRowBits w) xs

/-- The row-side elements of a STORE or POST, out of row memory. -/
def ClusterState.rowElems (c : ClusterState) (k w : Nat) : List (Nat × Bool) :=
  let base := (c.handle (sdHandle w)).baseRow + sdRow w
  (upto (sdElems w)).map fun n =>
    let bit := sdRowBit w n
    let r := c.row k (base + bit / 4096)
    let b := sdRowBits w
    (field r.data.toNat (bit % 4096 + b - 1) (bit % 4096), r.poison.getLsbD (bit % 4096 / 256))

/-! ### Slots -/

/-- A stream slot. -/
def ClusterState.slot (c : ClusterState) (i : Nat) : StreamSlot := SMap.getD c.stream.slots i {}

/-- A stream slot changed. -/
def ClusterState.modSlot (c : ClusterState) (i : Nat) (f : StreamSlot → StreamSlot) : ClusterState :=
  { c with stream := { c.stream with slots := SMap.mod c.stream.slots i {} f } }

/-- A stream slot of the state changed. -/
def State.modSlot (s : State) (k i : Nat) (f : StreamSlot → StreamSlot) : State := s.modCl k (·.modSlot i f)

/-- Descriptor bits of a slot. -/
def StreamSlot.word (x : StreamSlot) : Nat := (x.desc.map (·.bits.toNat)).getD 0

/-- A memory fault of stream slot `i` (R285, R295). -/
def State.streamFault (s : State) (k i code addr : Nat) : State :=
  let s := s.modSlot k i fun x => { x with failed := true, todo := [] }
  (((s.memoryFault k (pgStream k) 0 i code addr).pulse (pgStream k) 2).count (pgStream k) 5 1)

/-- Stream requests in flight. -/
def ClusterState.inFlight (c : ClusterState) : Nat := (c.outstanding.filter (·.engine == 0)).length

/-- Cycles with 32 stream requests in flight, counted when the time with them ends (R295). -/
def State.trackFull (s : State) (k : Nat) : State :=
  let set := fun (t : Option Nat) (s : State) => s.modCl k fun c => { c with stream := { c.stream with fullSince := t } }
  match (s.cl k).stream.fullSince, decide (32 ≤ (s.cl k).inFlight) with
  | none, true => set (some s.clock) s
  | some t, false => set none (s.count (pgStream k) 3 (s.clock - t))
  | _, _ => s

/-- The next transaction number that no outstanding request or post of the stream unit has (R318). -/
def ClusterState.nextTag (c : ClusterState) : Nat :=
  let used := fun (t : Nat) => c.outstanding.any (fun o => o.engine == 0 && o.tag == t)
    || c.stream.slots.any fun x => x.2.post.any fun p => p.tag.toNat == t
  (firstSome (fun t => !used t) ((upto 1024).map fun i => (c.stream.tag + 1 + i) % 1024)).getD 0

/-- The next slot in rotation that has a request ready (R288). -/
def ClusterState.nextSlot (c : ClusterState) : Option Nat :=
  firstSome (fun i => !(c.slot i).todo.isEmpty) ((upto 16).map fun j => (c.stream.turn + 1 + j) % 16)

/-- A piece's packet. -/
def State.piecePacket (s : State) (k w : Nat) (tag : BitVec 10) (dest : BitVec 16) (p : Piece) : Packet :=
  let words := (p.addr % 32 + p.len + 31) / 32
  let h : Packet :=
    { opcode := if sdLoads w then 1 else 2, prio := s.taskLc k, ctx := BitVec.ofNat 6 (s.taskCtx k), dest := dest,
      src := epCluster k 1, tag := tag, dmod := s.moduleId, smod := s.moduleId, hint := BitVec.ofNat 2 (sdHint w),
      addr := BitVec.ofNat 48 (p.addr / 32 * 32), len := BitVec.ofNat 7 (if sdLoads w then words else 0) }
  if sdLoads w then h
  else
    let ws := coverWords p.addr p.data p.poison
    { h with data := ws.map (·.bits), mask := coverMask p.addr p.len,
             wordPoison := BitVec.ofNat 64 (ws.foldr (fun x n => 2 * n + ofBool x.poison) 0) }

/-- Slot `i` issues its next request (R288, R291). -/
def State.issueFrom (s : State) (k i : Nat) : State :=
  let x := (s.cl k).slot i
  match x.todo with
  | [] => s
  | p :: rest =>
    let w := x.word
    let s := s.modSlot k i fun x => { x with todo := rest }
    match (if p.addr + p.len ≤ 2 ^ 48 then memEndpoint p.addr else none) with
    | none => s.streamFault k i 0x80 p.addr
    | some dest =>
      let tag := (s.cl k).nextTag
      let isHost := bitAt p.addr 47
      let o : Outstanding := ⟨0, i, tag, p.addr, (p.addr % 32 + p.len + 31) / 32, s.clock, !sdLoads w, isHost, p.num⟩
      let s := s.modCl k fun c => { c with stream := { c.stream with turn := i, tag := tag },
                                           outstanding := c.outstanding ++ [o] }
      ((s.trackFull k).count (pgStream k) 0 1).inject (s.piecePacket k w (BitVec.ofNat 10 tag) dest p)

/-- Requests issued while fewer than 32 are in flight (R288). -/
def State.pump (s : State) (k : Nat) : State :=
  (upto 32).foldl (fun s _ =>
    if 32 ≤ (s.cl k).inFlight ∨ s.halts k then s
    else match (s.cl k).nextSlot with
      | some i => s.issueFrom k i
      | none => s) s

/-! ### The progress of a transfer -/

/-- Companion rows written once all their elements are converted (R135, R136); the last when all are. -/
def State.writeCompanion (s : State) (k i w : Nat) (es : List StreamElem) : State :=
  let b := sdCompBytes w
  if !cvShav (sdConv w) then s
  else
    let have' := ((s.cl k).slot i).compRows
    let rows := if es.length = sdElems w then sdCompRows w else es.length * b / 512
    let bytes := bytesOfElems (8 * b) (es.map fun e => (e.shaving, e.poison))
    let bytes := (padTo 512 bytes).take (512 * rows)
    let s := s.modSlot k i fun x => { x with compRows := rows }
    if sdCompKind w = 1 then
      s.moveRows k 5 (sdCompHandle w) (sdCompRow w + have') false ((rowsOfPairs bytes false).drop have')
    else
      let a := sdCompAddr w + 512 * have'
      let bytes := bytes.drop (512 * have')
      if bytes.isEmpty then s
      else
        let poison := (bytes.zipIdx.filter fun x => x.1.2).map fun x => (a + x.2) / 32
        let s := s.count (pgStream k) 0 ((a % 512 + bytes.length + 511) / 512)
        let r := s.storeBytes (s.taskCtx k) (sdHint w) a (bytes.map (·.1)) poison
        if r.2.1 = 0 then r.1.count (pgStream k) 2 bytes.length else r.1.streamFault k i r.2.1 r.2.2

/-- The census of a stream shown in its slot, with the events of R138 and R139; an abort stops the stream. -/
def State.showCensus (s : State) (k i : Nat) (c : CensusRun) : State :=
  let seen := ((s.cl k).slot i).evented
  let s := s.modSlot k i fun x => { x with census := c.counts, evented := c.event, failed := x.failed || c.abort.isSome,
                                            todo := if c.abort.isSome then [] else x.todo }
  let s := if c.event && !seen then s.pulse (pgStream k) 8 else s
  match c.abort with
  | some n => (s.pulse (pgStream k) 9).endTask k { status := 9, engine := 0, part := i, value := n }
  | none => s

/-- The bytes of a load that have landed, up to the first request that has not. -/
def StreamSlot.landedBytes (x : StreamSlot) : List Piece → List (Byte × Bool)
  | [] => []
  | p :: ps =>
    match SMap.get? x.landed p.num with
    | none => []
    | some l => ((bytesOfWords l.2).drop (p.addr % 32)).take p.len ++ x.landedBytes ps

/-- The elements of a load whose bytes, and those of every earlier element, have landed. -/
def StreamSlot.loadElems (x : StreamSlot) (w : Nat) : List (Nat × Bool) :=
  (chunks (sdRunBytes w) (sdRuns w) (x.landedBytes (sdPieces w))).flatMap fun r =>
    elemsOfBytes (sdMemBits w) r (min (sdRun w) (8 * r.length / sdMemBits w))

/-- Units of `unit` bits on the row side whose every element is among the first `n`; all `total` of them at the end. -/
def sdUnits (w unit total n : Nat) : Nat := if n = sdElems w then total else sdRowBit w n / unit

/-- Tokens of a LOAD_Q (R292). -/
def tokensOf (w : Nat) (bs : List (Byte × Bool)) : List Token :=
  let cs := chunks 16 (bs.length / 16 + 1) bs
  cs.zipIdx.map fun c =>
    { payload := BitVec.ofNat 128 (ofBytes (c.1.map (·.1))), fold := BitVec.ofNat 3 (sdFold w),
      endBit := c.2 + 1 == sdTokens w, poison := c.1.any (·.2) }

/-- A load goes on with what has landed (R291, R292): elements are converted in order; a row, a token or a companion row
follows once all its elements have landed and every earlier one has been written. -/
def State.progressLoad (s : State) (k i : Nat) : State :=
  let x := (s.cl k).slot i
  let w := x.word
  let (es, c) := convertStream k w (x.loadElems w)
  let n := es.length
  let bytes := rowStream w (es.map fun e => (e.code, e.poison))
  let s := s.writeCompanion k i w es
  let s := s.showCensus k i c
  let done := n == sdElems w
  if sdOp w = 2 then
    let tokens := (tokensOf w bytes).take (sdUnits w 128 (sdTokens w) n)
    s.modSlot k i fun y => { y with tokens := y.tokens ++ tokens.drop x.made, made := tokens.length, finished := done }
  else
    let rows := rowsOfPairs (bytes.take (512 * sdUnits w 4096 (sdRows w) n)) false
    (s.moveRows k 5 (sdHandle w) (sdRow w + x.rows) (sdArrive w) (rows.drop x.rows)).modSlot k i fun y =>
      { y with rows := rows.length, finished := done }

/-- The row-side rows of a store that a request without an acknowledgement holds data of: first and last. -/
def storeRowsOf (w from_ len : Nat) : Nat × Nat :=
  (sdRowBit w (8 * from_ / sdMemBits w) / 4096,
   (sdRowBit w ((8 * (from_ + len) - 1) / sdMemBits w) + sdRowBits w - 1) / 4096)

/-- Rows of a store whose data every write has acknowledged (R295). -/
def StreamSlot.storedRows (x : StreamSlot) (w : Nat) : Nat :=
  let open_ := ((sdPieces w).foldl (fun (acc : List (Nat × Nat) × Nat) p =>
    (if (SMap.get? x.landed p.num).isSome then acc.1 else storeRowsOf w acc.2 p.len :: acc.1, acc.2 + p.len)) ([], 0)).1
  ((upto (sdRows w)).filter fun r => !open_.any fun o => decide (o.1 ≤ r ∧ r ≤ o.2)).length

/-- A slot after an answer: a load goes on; a store is finished when every write is acknowledged. -/
def State.settleSlot (s : State) (k i : Nat) : State :=
  let x := (s.cl k).slot i
  if x.failed || !x.started || x.finished then s
  else if sdLoads x.word then s.progressLoad k i
  else if x.post.isSome then s
  else
    let pending := !x.todo.isEmpty || (s.cl k).outstanding.any (fun o => o.engine == 0 && o.slot == i)
    s.modSlot k i fun x => { x with finished := !pending, rows := if sdOp x.word = 4 then (if pending then 0 else sdRows x.word) else x.storedRows x.word }

/-- A request of slot `i` landed or acknowledged. -/
def State.landPiece (s : State) (k : Nat) (o : Outstanding) (ws : List Word256) : State :=
  let s := s.modSlot k o.slot fun x => { x with landed := SMap.put x.landed o.piece (o.addr, ws) }
  s.count (pgStream k) (if o.isWrite then 2 else 1) (32 * o.words)

/-- The outstanding request of cluster `k`'s engine `e` with a transaction number. -/
def State.outstandingOf (s : State) (k e : Nat) (tag : BitVec 10) : Option Outstanding :=
  (s.cl k).outstanding.find? fun o => o.engine == e && o.tag == tag.toNat

/-- A request is no longer outstanding. -/
def State.dropRequest (s : State) (k : Nat) (o : Outstanding) : State :=
  (s.modCl k fun c => { c with outstanding := listErase c.outstanding o }).trackFull k

/-! ### Start (R288, R290 to R294) -/

/-- Rows of a post's message (R293). -/
def postRows (w : Nat) : Nat := (64 + sdElems w * sdMemBits w + 4095) / 4096

/-- The ring post of a slot (R293, R319 step 1). At an abort the rows remain of the writes whose every element comes before the
threshold element (R139). -/
def State.startPost (s : State) (k i w : Nat) (es : List StreamElem) (abort : Option Nat) : State :=
    let bytes := List.replicate 8 (0, false) ++ bytesOfElems (sdMemBits w) (es.map fun e => (e.code, e.poison))
    let rows := rowsOfPairs bytes false
    let rows := if abort.isSome then rows.take ((64 + es.length * sdMemBits w) / 4096 / 4 * 4) else rows
    let tag := (s.cl k).nextTag
    match placeOf (sdAddr w) with
    | .rowWindow t _ _ =>
      let p : Packet :=
        { opcode := 0x10, prio := s.taskLc k, ctx := BitVec.ofNat 6 (s.taskCtx k), dest := epCluster t 3, src := epCluster k 1,
          tag := BitVec.ofNat 10 tag, dmod := s.moduleId, smod := s.moduleId, addr := BitVec.ofNat 48 (sdAddr w),
          rsvRows := BitVec.ofNat 14 (postRows w) }
      let s := s.modCl k fun c => { c with stream := { c.stream with tag := tag } }
      (s.modSlot k i fun x => { x with post := some p, message := rows }).inject p
    | _ => s.streamFault k i 0x80 (sdAddr w)

/-- The data of a store's requests: run bytes at their places. -/
def storePieces (w : Nat) (bytes : List (Byte × Bool)) : List Piece :=
  ((sdPieces w).foldl (fun (acc : List Piece × List (Byte × Bool)) p =>
    let mine := acc.2.take p.len
    let poison := (mine.zipIdx.filter fun x => x.1.2).map fun x => (p.addr + x.2) / 32
    (acc.1 ++ [{ p with data := mine.map (·.1), poison := poison }], acc.2.drop p.len)) ([], bytes)).1

/-- The last element that a store's request holds, its bytes ending `upTo` bytes into the stream. -/
def lastElem (w upTo : Nat) : Nat := (8 * upTo - 1) / sdMemBits w

/-- The requests of a store that may be sent under an abort at element `n` (R139). -/
def piecesBefore (w n : Nat) (ps : List Piece) : List Piece :=
  (ps.foldl (fun (acc : List Piece × Nat) p =>
    let upTo := acc.2 + p.len
    (if lastElem w upTo < n then acc.1 ++ [p] else acc.1, upTo)) ([], 0)).1

/-- The writes of a stopped store that R139 requires. -/
def State.writePieces (s : State) (k i w : Nat) (ps : List Piece) : State :=
  ps.foldl (fun s p =>
    let r := s.memWriteOp (s.taskCtx k) (sdHint w) p.addr (coverWords p.addr p.data p.poison) (coverMask p.addr p.len)
    if r.2 = 0 then r.1.count (pgStream k) 2 p.len else r.1.streamFault k i r.2 p.addr) s

/-- A STORE or POST starts: its rows are read and converted (R291). -/
def State.startStore (s : State) (k i w : Nat) : State :=
  let (es, c) := convertStream k w ((s.cl k).rowElems k w)
  let s := s.traffic k 5 (((s.cl k).handle (sdHandle w)).baseRow + sdRow w) (sdRows w) false
  let s := s.writeCompanion k i w es
  let s := s.showCensus k i c
  if sdOp w = 4 then s.startPost k i w es c.abort
  else
    let codes := es.map fun e => (e.code, e.poison)
    let bytes := (chunks (sdRun w) (sdRuns w) codes).flatMap fun r => bytesOfElems (sdMemBits w) r
    let ps := storePieces w bytes
    match c.abort with
    | some n =>
      let ps := piecesBefore w n (storePieces w bytes)
      (s.count (pgStream k) 0 ps.length).writePieces k i w ps
    | none => s.modSlot k i fun x => { x with todo := ps, pieces := ps.length }

/-- The descriptor in slot `i` starts. -/
def State.startSlot (s : State) (k i : Nat) : State :=
  let w := ((s.cl k).slot i).word
  let s := (s.modSlot k i fun x => { x with started := true, census := {} }).active k
  if sdLoads w then
    let ps := sdPieces w
    let c := s.cl k
    let credit := if sdOp w = 2 then
        cwCred ((c.core (sdQCore w)).word (sdFold w)) (sdQueue w) - (c.core (sdQCore w)).held (sdQueue w) (sdFold w)
      else 0
    ((s.modSlot k i fun x => { x with todo := ps, pieces := ps.length, credit := credit }).pump k).settleSlot k i
  else ((s.startStore k i w).pump k).settleSlot k i

/-- A slot after a stop of its task: what the page still shows (R137, R295), and a post that is in flight, with the rows that R139 has
written (R297). -/
def StreamSlot.clear (x : StreamSlot) : StreamSlot :=
  { op := x.op, rows := x.rows, census := x.census, post := x.post, failed := x.failed,
    message := if x.failed then x.message else [] }

/-- A slot that has entered and whose count is reached. -/
def ClusterState.readySlot (c : ClusterState) : Option Nat :=
  firstSome (fun i =>
    let x := c.slot i
    x.desc.isSome && !x.started && c.waitMet true (sdWaitHandle x.word) (sdWaitCount x.word)) (upto 16)

/-- STREAM_START (R288, R290, R294): a waiting slot whose count is reached, or else the head of the queue, which enters its slot
when that is free. -/
def execStreamStart (k : Cl) (s : State) : Res :=
  .next (let k := k.val
         let c := s.cl k
         if s.halts k then s
         else match c.readySlot with
           | some i => s.startSlot k i
           | none => match c.stream.queue with
             | [] => s
             | d :: rest =>
               let w := d.bits.toNat
               let i := sdSlot w
               let pop := fun (s : State) => s.modCl k fun c => { c with stream := { c.stream with queue := rest } }
               if !c.streamOk w then (pop s).refuseDesc k 0 i 0 d.offset
               else if (c.slot i).desc.isSome then s
               else
                 let s := (pop s).modSlot k i fun x =>
                   { census := x.census, desc := some d, op := sdOp w, share := if sdOp w = 2 then some (sdQCore w, sdQueue w, sdFold w) else none }
                 if c.waitMet (sdWaitEn w) (sdWaitHandle w) (sdWaitCount w) then s.startSlot k i else s)

/-! ### Answers (R284, R285, R318) -/

/-- READ_DATA (R318): the words land at their issuer; a stopped task's are dropped (R297). -/
def execReadData (p : Packet) (s : State) : Res :=
  .next (let s := s.receive p
         let k := epNumber p.dest
         match (if epKind p.dest = 0 then s.outstandingOf k 0 p.tag else none) with
         | none => s
         | some o =>
           let s := s.dropRequest k o
           if (s.cl k).stopped then s
           else (((s.landPiece k o (wordsOf p)).pump k).settleSlot k o.slot).active k)

/-- WRITE_ACK (R284). -/
def execWriteAck (p : Packet) (s : State) : Res :=
  .next (let s := s.receive p
         let k := epNumber p.dest
         match (if epKind p.dest = 0 then s.outstandingOf k 0 p.tag else none) with
         | none => s
         | some o => (((s.dropRequest k o).landPiece k o []).pump k).settleSlot k o.slot)

/-- The slot whose post waits under a transaction number. -/
def ClusterState.postSlot (c : ClusterState) (tag : BitVec 10) : Option Nat :=
  (firstSome (fun x => x.2.post.any fun q => q.tag == tag) c.stream.slots).map (·.1)

/-- ERROR (R285): the issuer's memory fault. -/
def execError (p : Packet) (s : State) : Res :=
  .next (let s := s.receive p
         let k := epNumber p.dest
         if epKind p.dest ≠ 0 then s
         else match s.outstandingOf k 0 p.tag with
           | some o => (s.dropRequest k o).streamFault k o.slot p.status.toNat o.addr
           | none => match (s.cl k).postSlot p.tag with
             | some i => (s.modSlot k i fun x => { x with post := none }).streamFault k i p.status.toNat p.addr.toNat
             | none => s)

/-- The writes of a placed message, up to 4 rows each, from its place in the ring's window (R319 step 3). -/
def postPieces (base : Nat) (rows : List Row) : List Piece :=
  (chunks 4 (rows.length / 4 + 1) rows).zipIdx.map fun c =>
    let a := base + 2048 * c.2
    let bs := bytesOfWords (c.1.flatMap Row.words)
    ⟨c.2, a, bs.length, bs.map (·.1), (bs.zipIdx.filter fun x => x.1.2).map fun x => (a + x.2) / 32⟩

/-- RING_PLACE (R319 step 3): the sender writes the placed rows. -/
def execRingPlace (p : Packet) (s : State) : Res :=
  .next (let s := s.receive p
         let k := epNumber p.dest
         match (s.cl k).postSlot p.tag with
         | none => s
         | some i =>
           let x := (s.cl k).slot i
           let ps := postPieces (p.addr.toNat + 512 * p.placeRow.toNat) x.message
           let s := s.modSlot k i fun x => { x with post := none, message := [] }
           if x.failed then (s.count (pgStream k) 0 ps.length).writePieces k i x.word ps
           else ((s.modSlot k i fun x => { x with todo := ps, pieces := ps.length }).pump k).settleSlot k i)

/-! ### Tokens and the end of a descriptor (R292, R295) -/

/-- LOAD_Q_TOKEN (R292): the next token, against the share's credit. -/
def execLoadQToken (k : Cl) (slot : Fin 16) (s : State) : Res :=
  .next (let k := k.val
         let i := slot.val
         let x := (s.cl k).slot i
         match x.tokens, x.share with
         | t :: rest, some (n, q, _) =>
           if x.credit = 0 ∨ s.halts k then s
           else
             let s := s.modSlot k i fun x =>
               { x with tokens := rest, credit := x.credit - 1, delivered := x.delivered + 1,
                        rows := x.rows + (if (x.delivered + 1) % 32 == 0 || x.delivered + 1 == sdTokens x.word then 1 else 0) }
             ((s.count (pgStream k) 4 1).deliver k n q t).active k
         | _, _ => s)

/-- A request that an engine withdraws from the mesh because its answer is already taken. -/
def State.recall (s : State) (src : BitVec 16) (tag : BitVec 10) : State :=
  let mine := fun (p : Packet) => p.src == src && p.tag == tag
  { s with mesh := { s.mesh with
      routers := SMap.mapAll s.mesh.routers fun r => { r with held := r.held.filter fun h => !mine h.packet },
      delivered := s.mesh.delivered.filter fun d => !mine d.packet } }

/-- An outstanding request answered now by its responder. -/
def State.answerNow (s : State) (k w : Nat) (o : Outstanding) (p : Piece) : State :=
  let s := (s.recall (epCluster k 1) (BitVec.ofNat 10 o.tag)).dropRequest k o
  if o.isWrite then
    if p.len = 0 then s.landPiece k o [] else
    let r := s.memWriteOp (s.taskCtx k) (sdHint w) p.addr (coverWords p.addr p.data p.poison) (coverMask p.addr p.len)
    if r.2 = 0 then r.1.landPiece k o [] else r.1.streamFault k o.slot r.2 p.addr
  else
    let r := s.memReadOp (s.taskCtx k) (sdHint w) p.addr o.words
    if r.2.1 = 0 then r.1.landPiece k o r.2.2 else r.1.streamFault k o.slot r.2.1 p.addr

/-- The data that an outstanding write carries, from its packet in the mesh. -/
def State.heldData (s : State) (k : Nat) (o : Outstanding) : Piece :=
  let mine := fun (p : Packet) => p.src == epCluster k 1 && p.tag.toNat == o.tag
  let ps := (s.mesh.routers.flatMap fun r => r.2.held.map (·.packet)) ++ s.mesh.delivered.map (·.packet)
  match firstSome mine ps with
  | none => ⟨o.piece, o.addr, 0, [], []⟩
  | some p =>
    let bs := bytesOfWords (wordsOf p)
    let len := match p.mask with
      | some m => ((upto bs.length).filter fun i => m.getLsbD i).length
      | none => bs.length
    let mine := (bs.drop (o.addr % 32)).take len
    ⟨o.piece, o.addr, len, mine.map (·.1), (mine.zipIdx.filter fun x => x.1.2).map fun x => (o.addr + x.2) / 32⟩

/-- Every request of slot `i` that is not answered yet is answered, in issue order: what STREAM_DONE presupposes. -/
def State.completeSlot (s : State) (k i : Nat) : (fuel : Nat) → State
  | 0 => s
  | fuel + 1 =>
    let x := (s.cl k).slot i
    match (s.cl k).outstanding.find? fun o => o.engine == 0 && o.slot == i with
    | some o => (s.answerNow k x.word o (s.heldData k o)).completeSlot k i fuel
    | none =>
      if x.todo.isEmpty || x.failed then s.settleSlot k i
      else (s.issueFrom k i).completeSlot k i fuel

/-- STREAM_DONE (R295): every write is acknowledged, every row written, every token delivered. -/
def execStreamDone (k : Cl) (slot : Fin 16) (s : State) : Res :=
  .next (let k := k.val
         let i := slot.val
         let x := (s.cl k).slot i
         match x.desc with
         | none => s
         | some d =>
           if !x.started || x.failed || (s.cl k).stopped || (s.halts k && !x.todo.isEmpty) then s
           else
             let s := s.completeSlot k i (2 * x.pieces + 2)
             let x := (s.cl k).slot i
             if x.failed || !x.finished || !x.tokens.isEmpty then s
             else
               let w := x.word
               let s := s.modSlot k i fun x => { x with desc := none, share := none, landed := [], started := false }
               let s := if sdRelease w then s.releaseRing k (sdHandle w) (sdRows w) else s
               ((s.pulse (pgStream k) 1).finishRecord k d).active k)

/-! ### Work lists (R286, R287) -/

/-- Bytes of a record by KIND, header included; `none` where reserved. -/
def recordBytes : Nat → Option Nat
  | 1 => some 136 | 2 => some 72 | 3 => some 264 | 4 => some 24 | 5 => some 24 | 6 => some 8 | _ => none

/-- Whether the queue of a record's engine has a place (R287). -/
def ClusterState.hasPlace (c : ClusterState) (kind fe : Nat) : Bool :=
  match kind with
  | 1 => decide (c.stream.queue.length < 16)
  | 2 => decide (c.awl.queue.length < 2)
  | 3 => decide ((SMap.getD c.fes fe {}).queue.length < 4)
  | 4 => decide (c.fillCopy.length < 8)
  | 5 => decide (c.lacing.queue.length < 4)
  | _ => true

/-- A descriptor handed to its engine. -/
def ClusterState.hand (c : ClusterState) (kind fe : Nat) (d : PendingDesc) (clock : Nat) : ClusterState :=
  match kind with
  | 1 => { c with stream := { c.stream with queue := c.stream.queue ++ [d] } }
  | 2 => { c with awl := { c.awl with queue := c.awl.queue ++ [d] } }
  | 3 => { c with fes := SMap.mod c.fes fe {} fun f =>
      { f with queue := f.queue ++ [d], headAt := if f.queue.isEmpty then clock else f.headAt } }
  | 4 => { c with fillCopy := c.fillCopy ++ [d] }
  | _ => { c with lacing := { c.lacing with queue := c.lacing.queue ++ [d] } }

/-- A fetch of a list that met a fault or a poisoned word (R285, R481): the state with the task's end, or `none` where it is good. -/
def State.listFault (_ : State) (k : Nat) (f : Fetched) : Option State :=
  if f.status ≠ 0 then some (f.s.memoryFault k (pgClCtrl k) 7 0 f.status f.fault)
  else if f.bytes.any (·.2) then some (f.s.uncontained k (pgClCtrl k) 0xD3 0 7)
  else none

/-- RECORD_DISPATCH (R287): the next record of the work list. -/
def execRecordDispatch (k : Cl) (s : State) : Res :=
  .next (let k := k.val
         let c := s.cl k
         let l := c.work
         let x := s.taskCtx k
         let setWork := fun (s : State) (f : ListRun → ListRun) => s.modCl k fun c => { c with work := f c.work }
         let refused := (setWork s fun l => { l with ended := true }).refuseDesc k 7 0 0 l.pos
         if c.stopped || l.ended then s
         else if l.len < l.pos + 8 then refused
         else
           let h := (s.unseal k).fetchBytes x 0 (l.addr + l.pos) 8
           match s.listFault k h with
           | some t => setWork t fun l => { l with ended := true }
           | none =>
             let w := ofBytes (h.bytes.map (·.1))
             let kind := field w 63 60
             let fe := field w 59 58
             let len := 8 * field w 57 50
             if recordBytes kind ≠ some len ∨ field w 41 0 ≠ 0 ∨ l.len < l.pos + len then refused
             else if bitAt w 49 && !(upto l.record).all c.doneRecords.contains then s
             else if !c.hasPlace kind fe then s
             else
               let f := (s.unseal k).fetchBytes x 0 (l.addr + l.pos) len
               match s.listFault k f with
               | some t => setWork t fun l => { l with ended := true }
               | none =>
                 let signal := if bitAt w 48 then some (field w 47 42) else none
                 let d : PendingDesc := { bits := BitVec.ofNat 2048 (ofBytes ((f.bytes.drop 8).map (·.1))), record := l.record,
                                          offset := l.pos, signal := signal }
                 let s := setWork f.s fun l => { l with pos := l.pos + len, record := l.record + 1, ended := kind == 6 }
                 if kind = 6 then s.finishRecord k d else (s.modCl k (·.hand kind fe d s.clock)).active k)

end Sys2Proof.Machine
end

