-- ==== Sys2Proof/Machine/Cinch.lean ====
section
/-! DEFINITION. Cinches (spec/13): the units and their operations, watches, barriers, wake messages at the clusters, the cinch
list, retargeting and translation. -/
namespace Sys2Proof.Machine

/-! ### Packets (R336) -/

def cpOperand (w : Nat) : Nat := field w 255 192
def cpValue (w : Nat) : Nat := field w 191 128
def cpCookie (w : Nat) : Nat := field w 127 96
def cpTarget (w : Nat) : Nat := field w 95 80
def cpKind (w : Nat) : Nat := field w 79 78
def cpCond (w : Nat) : Nat := field w 77 76
def cpGate (w : Nat) : Bool := bitAt w 75
def cpStatus (w : Nat) : Nat := field w 71 64
def cpGen (w : Nat) : Nat := field w 63 48
def cpVid (w : Nat) : Nat := field w 47 36

/-- The data flit of a cinch packet, as a number. -/
def cpWord (p : Packet) : Nat := (p.data.headD 0).toNat

/-- A data flit with the fields of R336. -/
def cinchWord (operand value cookie target kind cond : Nat) (gate : Bool) (status gen vid : Nat) : W256 :=
  BitVec.ofNat 256 (operand <<< 192 + value <<< 128 + cookie <<< 96 + target <<< 80 + kind <<< 78 + cond <<< 76
    + ofBool gate <<< 75 + status <<< 64 + gen <<< 48 + vid <<< 36)

/-- A cinch packet of LC class (R313) with one data flit. -/
def cinchPacket (op ctx : Nat) (src dest : BitVec 16) (own : BitVec 14) (tag : Nat) (w : W256) (poison : Bool) : Packet :=
  { opcode := BitVec.ofNat 8 op, prio := true, ctx := BitVec.ofNat 6 ctx, dest := dest, src := src, tag := BitVec.ofNat 10 tag,
    dmod := own, smod := own, wordPoison := BitVec.ofNat 64 (ofBool poison), data := [w, 0] }

/-- The endpoint of cinch unit `u` (R316). -/
def epCinch (u : Nat) : BitVec 16 := epIo u 8

/-! ### Units (R332 to R335) -/

/-- Cinch unit `u`. -/
def State.cinchUnit (s : State) (u : Nat) : CinchUnit := SMap.getD s.cinch u {}

/-- A cinch unit changed. -/
def State.modCinch (s : State) (u : Nat) (f : CinchUnit → CinchUnit) : State :=
  { s with cinch := SMap.mod s.cinch u {} f }

/-- The unit of a VID (R333). -/
def unitOf (vid : Nat) : Nat := field vid 11 11

/-- The physical cinch, within its unit, of a context's VID (R333). -/
def CinchUnit.physical (u : CinchUnit) (ctx vid : Nat) : Option Nat :=
  let e := (SMap.getD u.xlt (128 * ctx + field vid 10 4) 0).toNat
  if bitAt e 31 then some (16 * field e 10 0 + vid % 16) else none

/-- Value and poison of a physical cinch. -/
def CinchUnit.value (u : CinchUnit) (n : Nat) : W64 := SMap.getD u.values n 0
def CinchUnit.poisoned (u : CinchUnit) (n : Nat) : Bool := u.poison.contains n

/-- Whether a condition holds (R338). -/
def condHolds (cond : Nat) (x t : W64) : Bool :=
  match cond with
  | 0 => decide ((x - t).toNat < 2 ^ 63)
  | 1 => x == t
  | 2 => x != t
  | _ => decide (2 ^ 63 ≤ (x - t).toNat)

/-! ### Wakes (R339, R340, R343) -/

/-- The wake packet of a watch. -/
def State.wakePacket (s : State) (u : Nat) (w : CinchWatch) (x : W64) (poison : Bool) : Packet :=
  let dest := if w.wkind = 2 then epDispatch (w.wtarget % 16) else epCluster (epNumber w.src) 0
  cinchPacket 0x3F w.ctx (epCinch u) dest s.moduleId 0
    (cinchWord 0 x.toNat w.cookie.toNat w.wtarget w.wkind 0 w.gate 0 0 w.vid) poison

/-- The wake queue of dispatch core `t`, with its credits. -/
def State.wakeQueue (s : State) (t : Nat) : WakeQueue := SMap.getD s.wakes t {}

/-- A wake queue changed. -/
def State.modWake (s : State) (t : Nat) (f : WakeQueue → WakeQueue) : State := { s with wakes := SMap.mod s.wakes t {} f }

/-- A packet that an operation causes leaves its unit, which sends one packet in a system cycle, from the cycle after the operation
on (R337). -/
def State.reply (s : State) (p : Packet) : State := s.injectAfter 2 p

/-- A wake leaves the unit: one of kind 2 only against a credit of its core, else it stays queued (R343). -/
def State.sendWake (s : State) (u : Nat) (p : Packet) : State :=
  let w := cpWord p
  if cpKind w = 2 then
    let t := cpTarget w % 16
    if (s.wakeQueue t).credit = 0 then s.modCinch u fun c => { c with held := c.held ++ [p] }
    else ((s.modWake t fun q => { q with credit := q.credit - 1 }).count (pgCinch u) 2 1).reply p
  else (s.count (pgCinch u) 2 1).reply p

/-- The wakes of physical cinch `n` that its value now satisfies, in the order of registration (R339). -/
def State.fireWatches (s : State) (u n : Nat) : State :=
  let c := s.cinchUnit u
  let x := c.value n
  let due := c.watches.filter fun w => c.physical w.ctx w.vid == some n && condHolds w.cond x w.comparand
  let s := s.modCinch u fun c => { c with watches := c.watches.filter fun w => !due.contains w }
  due.foldl (fun s w => s.sendWake u (s.wakePacket u w x (c.poisoned n))) s

/-! ### Operations (R335, R337) -/

/-- The response to a request: status, value, poison, generation. -/
def respond (p : Packet) (status : Nat) (x : W64) (poison : Bool) (gen : Nat) : Packet :=
  { answer p 0x3E 0 with
    prio := true, wordPoison := BitVec.ofNat 64 (ofBool poison),
    data := [cinchWord 0 x.toNat 0 0 0 0 false status gen (cpVid (cpWord p)), 0] }

/-- Whether a delivered request is its unit's next (R337): the order is that of the tails, and within a cycle that of `SRC`. -/
def State.cinchTurn (s : State) (p : Packet) : Bool :=
  match s.deliveryOf p with
  | none => true
  | some d => s.mesh.delivered.all fun e =>
      e.packet.dest != p.dest || decide (d.due < e.due) || (e.due == d.due && decide (p.src.toNat ≤ e.packet.src.toNat))

/-- The cycle in which a request takes effect (R337): 8 cycles after its tail, and 2 after the operation before it. -/
def State.cinchTime (s : State) (p : Packet) (u : Nat) : Nat :=
  match s.deliveryOf p with
  | none => 0
  | some d => max (d.due + 8) (SMap.getD s.mesh.cinchNext u 0)

/-- The request is taken from the mesh, in the cycle in which it takes effect. -/
def State.takeCinch (s : State) (p : Packet) (u : Nat) : State :=
  match s.deliveryOf p with
  | none => s
  | some d =>
    let t := s.cinchTime p u
    let s := if t ≤ s.clock then s else s.reachClock t
    { s with mesh := { s.mesh with delivered := listErase s.mesh.delivered d, cinchNext := SMap.put s.mesh.cinchNext u (t + 2) } }

/-- An operation on the cinch that a request names: answered with status 3 where the encoding is reserved, NOT_MAPPED where no entry
translates, else `f` on the physical cinch. A request out of its turn is not taken. -/
def State.onCinch (s : State) (p : Packet) (reserved : Bool) (f : State → (u n : Nat) → State) : State :=
  if !s.cinchTurn p then s
  else
    let vid := cpVid (cpWord p)
    let u := unitOf vid
    let s := s.takeCinch p u
    if reserved then s.reply (respond p 3 0 false 0)
    else match (s.cinchUnit u).physical p.ctx.toNat vid with
      | none => (s.count (pgCinch u) 5 1).reply (respond p 1 0 false 0)
      | some n => f s u n

/-- A success response with the cinch as it stands, the operation counted. -/
def State.answerCinch (s : State) (p : Packet) (u n gen : Nat) : State :=
  let c := s.cinchUnit u
  (s.count (pgCinch u) 0 1).reply (respond p 0 (c.value n) (c.poisoned n) gen)

/-- A value written. -/
def CinchUnit.setValue (c : CinchUnit) (n : Nat) (x : W64) : CinchUnit := { c with values := SMap.put c.values n x }

/-- A read of physical cinch `n` of unit `u` finds its value uncorrectable (R332): the poison bit, and a deferred error. -/
def State.cinchError (s : State) (u n : Nat) : State :=
  if (s.cinchUnit u).poisoned n then s
  else (s.modCinch u fun c => { c with poison := n :: c.poison }).report (pgCinch u) 1 0x90 0

/-- CINCH_ADD (R335). -/
def execCinchAdd (p : Packet) (s : State) : Res :=
  .next (s.onCinch p false fun s u n =>
    let s := s.modCinch u fun c => c.setValue n (c.value n + BitVec.ofNat 64 (cpOperand (cpWord p)))
    (s.answerCinch p u n 0).fireWatches u n)

/-- CINCH_SET (R335). -/
def execCinchSet (p : Packet) (s : State) : Res :=
  .next (s.onCinch p false fun s u n =>
    let s := s.modCinch u fun c =>
      { c.setValue n (BitVec.ofNat 64 (cpOperand (cpWord p))) with poison := c.poison.filter (· != n) }
    (s.answerCinch p u n 0).fireWatches u n)

/-- CINCH_READ (R335). -/
def execCinchRead (p : Packet) (s : State) : Res :=
  .next (s.onCinch p false fun s u n => (s.answerCinch p u n 0).fireWatches u n)

/-- Whether a WATCH names a target that R340 lets its sender name. -/
def watchTargetOk (p : Packet) : Bool :=
  let w := cpWord p
  match cpKind w with
  | 0 => epKind p.src == 0
  | 1 => epKind p.src == 0 && field (cpTarget w) 15 6 == 0
  | 2 => field (cpTarget w) 15 4 == 0
  | _ => false

/-- CINCH_WATCH (R339): registered, answered, and tested at once. -/
def execCinchWatch (p : Packet) (s : State) : Res :=
  .next (let w := cpWord p
         s.onCinch p (!watchTargetOk p) fun s u n =>
           let c := s.cinchUnit u
           if 8192 ≤ c.watches.length then
             (((s.pulse (pgCinch u) 1).count (pgCinch u) 4 1).reply (respond p 2 (c.value n) (c.poisoned n) 0))
           else
             let x : CinchWatch :=
               { ctx := p.ctx.toNat, vid := cpVid w, cond := cpCond w, comparand := BitVec.ofNat 64 (cpOperand w),
                 src := p.src, smod := p.smod, wkind := cpKind w, wtarget := cpTarget w,
                 cookie := BitVec.ofNat 32 (cpCookie w), gate := cpGate w }
             let s := (s.answerCinch p u n 0).count (pgCinch u) 1 1
             if c.poisoned n then s.sendWake u (s.wakePacket u x (c.value n) true)
             else (s.modCinch u fun c => { c with watches := c.watches ++ [x] }).fireWatches u n)

/-- The command of a dispatch core's watch, as the cookie of its CINCH_WATCH names it (log 20): context, sequence number. -/
def cookieCommand (cookie : Nat) : Option (Nat × Nat) :=
  if bitAt cookie 31 then some (field cookie 30 25, field cookie 24 0) else none

/-- A command in progress of the context changed, by sequence number modulo 2^25. -/
def State.modWaiter (s : State) (cookie : Nat) (f : Command → Command) : State :=
  match cookieCommand cookie with
  | none => s
  | some (x, q) =>
    { s with host := { s.host with contexts := SMap.mod s.host.contexts x {} fun c =>
        { c with inProgress := c.inProgress.map fun d =>
            if d.started && d.seq.toNat % 2 ^ 25 == q && d.desc.toNat % 256 == 8 then f d else d } } }

/-- CINCH_CANCEL (R335, R379). -/
def execCinchCancel (p : Packet) (s : State) : Res :=
  .next (let w := cpWord p
         s.onCinch p false fun s u n =>
           let s := if epKind p.src = 2 then s.modWaiter (cpCookie w) fun d => { d with cancel := 2 } else s
           let gone := fun (x : CinchWatch) => x.ctx == p.ctx.toNat && x.vid == cpVid w && x.src == p.src && x.smod == p.smod
             && (cpCookie w == 0 || x.cookie.toNat == cpCookie w)
           let k := ((s.cinchUnit u).watches.filter gone).length
           let s := s.modCinch u fun c => { c with watches := c.watches.filter fun x => !gone x }
           ((s.count (pgCinch u) 6 k).answerCinch p u n 0).fireWatches u n)

/-! ### Barriers at the unit (R348) -/

/-- The generation of the arrival that leaves `v` with `n` parties. -/
def generation (v n : Nat) : Nat := (v + n - 1) / n

/-- A release to cluster `k`. -/
def State.releasePacket (s : State) (u ctx vid gen k : Nat) : Packet :=
  cinchPacket 0x3F ctx (epCinch u) (epCluster k 0) s.moduleId 0 (cinchWord 0 0 0 0 3 0 false 0 (gen % 65536) vid) false

/-- A cluster in a mask kept in rising order. -/
def addMask (ks : List Nat) (k : Nat) : List Nat :=
  if ks.contains k then ks else ks.filter (· < k) ++ [k] ++ ks.filter (k < ·)

/-- CINCH_ARRIVE (R348). -/
def execCinchArrive (p : Packet) (s : State) : Res :=
  .next (let w := cpWord p
         let parties := cpOperand w % 65536
         s.onCinch p (parties == 0) fun s u n =>
           let c := s.cinchUnit u
           let v := (c.value n + 1).toNat
           let gen := generation v parties
           let full := v % parties == 0
           let mine := fun (b : BarrierEntry) => b.cinch == n && b.gen.toNat == gen
           let old := firstSome mine c.barriers
           let need := old.isNone && !full
           if need && decide (256 ≤ c.barriers.length) then
             (s.count (pgCinch u) 4 1).reply (respond p 2 (c.value n) (c.poisoned n) 0)
           else
             let before := (old.map (·.arrived)).getD []
             let mask := if epKind p.src = 0 then addMask before (epNumber p.src) else before
             let rest := c.barriers.filter fun b => !mine b
             let s := s.modCinch u fun c =>
               { c.setValue n (BitVec.ofNat 64 v) with
                 barriers := if full then rest else rest ++ [⟨n, cpVid w, BitVec.ofNat 64 gen, mask⟩] }
             let s := (s.answerCinch p u n (gen % 65536)).fireWatches u n
             if full then
               mask.foldl (fun s k => (s.count (pgCinch u) 3 1).reply (s.releasePacket u p.ctx.toNat (cpVid w) gen k)) s
             else s)

/-! ### Wakes and releases at a cluster (R340 to R342, R347, R349) -/

/-- The core, queue and fold of a kind 0 target (R340). -/
def wtCore (t : Nat) : Nat := 32 * field t 15 11 + field t 10 6
def wtQueue (t : Nat) : Nat := field t 5 3
def wtFold (t : Nat) : Nat := field t 2 0

/-- A wake token (R341). -/
def wakeToken (value fold : Nat) (last poison : Bool) : Token :=
  { payload := controlPayload value 0 true last false, ctrl := true, fold := BitVec.ofNat 3 fold, poison := poison }

/-- A core-queue target is given a token to write, from cycle `ready` on, or a handle its increment. -/
def State.giveTarget (s : State) (k kind target value : Nat) (last poison gate : Bool) (ready : Nat) : State :=
  if kind = 0 then
    s.modCl k fun c => { c with
      heldWakes := c.heldWakes ++ [⟨wtCore target, wtQueue target, wakeToken value (wtFold target) last poison, gate, ready⟩] }
  else s.arrive k (target % 64) false

/-- Whether a task of cluster `k`'s region runs (R347). -/
def State.taskRuns (s : State) (k : Nat) : Bool :=
  match s.regionOf? k with
  | some (_, g) => g.task.any (·.started)
  | none => false

/-- A wake of kind 0 or 1 at cluster `k` (R340, R347). While 32 tokens wait, a further one stays with its sender. -/
def State.clusterWake (s : State) (p : Packet) (k : Nat) : State :=
  let w := cpWord p
  let c := s.cl k
  if !s.taskRuns k || !c.watchedVids.contains (cpVid w) then (s.receive p).count (pgClCtrl k) 56 1
  else if cpKind w = 0 ∧ 32 ≤ c.heldWakes.length then s
  else
    let s := (s.receive p).unseal k
    s.giveTarget k (cpKind w) (cpTarget w) (cpValue w % 2 ^ 32) true (p.wordPoison.getLsbD 0) (cpGate w) s.clock

/-- Whether a held wake token can be written: its share has a free entry of its fold. -/
def CoreState.wakeFits (c : CoreState) (q f : Nat) : Bool :=
  let cred := cwCred (c.word f) q
  !cwValid (c.word f) || cred == 0 || (SMap.get? c.closed (pairKey q f)).isSome || decide (c.held q f < cred)

/-- The held token that is written next: the first that may be written in cycle `now` of those whose share has room, else the first
of these. -/
def ClusterState.nextWake (c : ClusterState) (now : Nat) : Option HeldWake :=
  let fits := c.heldWakes.filter fun h => (c.core h.core).wakeFits h.queue h.tok.fold.toNat
  match firstSome (fun h => decide (h.ready ≤ now)) fits with
  | some h => some h
  | none => fits.head?

/-- WAKE_TOKEN_WRITE (R341, R342): the next held token is written in its cycle; the last one ungates its core. -/
def execWakeTokenWrite (k : Cl) (s : State) : Res :=
  .next (let k := k.val
         match (s.cl k).nextWake s.clock with
         | none => s
         | some h =>
           let s := s.reachClock h.ready
           let s := s.modCl k fun c => { c with heldWakes := listErase c.heldWakes h }
           let s := if h.gates then s.modCore k h.core fun x => { x with gates := x.gates - 1 } else s
           (s.deliver k h.core h.queue h.tok).active k)

/-- Waiters freed, their targets delivered in table order, a token in each cycle from the next on (R349); `last`: on time. -/
def State.freeWaiters (s : State) (k : Nat) (ws : List BarrierWaiter) (gen : Nat) (last : Bool) : State :=
  let s := s.modCl k fun c => { c with barriers := c.barriers.filter fun b => !ws.contains b }
  ws.zipIdx.foldl (fun s b => s.giveTarget k b.1.kind b.1.target gen last false b.1.gate (s.clock + 1 + b.2)) s

/-- BARRIER_RELEASE (R349). -/
def execBarrierRelease (p : Packet) (s : State) : Res :=
  .next (let k := epNumber p.dest
         let w := cpWord p
         let s := s.receive p
         if !s.taskRuns k then s.count (pgClCtrl k) 56 1
         else
           let ws := (s.cl k).barriers.filter fun b =>
             b.vid == cpVid w && decide ((cpGen w + 65536 - b.gen) % 65536 < 32768)
           (s.unseal k).freeWaiters k ws (cpGen w) true)

/-- What a cluster does with its cinches when its task ends (R347). -/
def State.endCinches (s : State) (k : Nat) : State :=
  let c := s.cl k
  let x := s.taskCtx k
  let s := s.modCl k fun c =>
    { c with watchedVids := [], barriers := [], heldWakes := [], retries := [], cinchOps := [],
             cores := SMap.mapAll c.cores fun n => { n with gates := 0 } }
  c.watchedVids.foldl (fun s v =>
    s.inject (cinchPacket 0x3C x (epCluster k 0) (epCinch (unitOf v)) s.moduleId 1023 (cinchWord 0 0 0 0 0 0 false 0 0 v) false)) s

/-! ### The cinch list (R345, R346) -/

def ceOp (w : Nat) : Nat := field w 255 252
def ceVid (w : Nat) : Nat := field w 198 187
def ceKind (w : Nat) : Nat := field w 236 235
def ceTarget (w : Nat) : Nat := field w 234 219
def ceGate (w : Nat) : Bool := bitAt w 237
def ceDlEn (w : Nat) : Bool := bitAt w 216
def ceDlBeats (w : Nat) : Nat := field w 214 199

/-- Whether a descriptor holds a reserved encoding or a zero field that is not zero. -/
def ceReserved (w : Nat) : Bool :=
  let op := ceOp w
  !(decide (1 ≤ op ∧ op ≤ 4)) || field w 186 160 != 0 || field w 31 0 != 0
    || (decide (3 ≤ op) && (decide (2 ≤ ceKind w) || (ceKind w == 1 && field (ceTarget w) 15 6 != 0)))
    || (op == 4 && ((ceDlEn w && decide (ceDlBeats w < 2)) || field w 127 80 != 0 || field w 79 64 == 0))

/-- Whether a kind 0 target meets R341: the share has credit, and nothing else feeds it. -/
def ClusterState.wakeShareOk (c : ClusterState) (t : Nat) : Bool :=
  let w := (c.core (wtCore t)).word (wtFold t)
  cwValid w && cwCred w (wtQueue t) != 0 && !c.isFed (wtCore t) (wtQueue t) (wtFold t)

/-- Whether a descriptor may name the handle: valid, and no ring (R346). -/
def ClusterState.handleNamed (c : ClusterState) (h : Nat) : Bool := (c.handle h).valid && !(c.handle h).isRing

/-- The checks at an entry's issue (R346). -/
def State.ceOk (s : State) (k w : Nat) : Bool :=
  let c := s.cl k
  let good := c.handleNamed
  let targets := decide (3 ≤ ceOp w)
  !ceReserved w && ((s.cinchUnit (unitOf (ceVid w))).physical (s.taskCtx k) (ceVid w)).isSome
    && (!bitAt w 251 || good (field w 250 245)) && (!bitAt w 244 || good (field w 243 238))
    && (!(targets && ceKind w == 1) || good (ceTarget w % 64))
    && (!(targets && ceKind w == 0) || c.wakeShareOk (ceTarget w))

/-- The packet of an entry. -/
def State.cePacket (s : State) (k w tag : Nat) : Packet :=
  let op := ceOp w
  let code := if op = 1 then 0x38 else if op = 2 then 0x39 else if op = 3 then 0x3B else 0x3D
  cinchPacket code (s.taskCtx k) (epCluster k 0) (epCinch (unitOf (ceVid w))) s.moduleId tag
    (cinchWord (if op = 4 then field w 79 64 else field w 127 64) 0 (field w 159 128) (ceTarget w) (ceKind w)
      (field w 218 217) (ceGate w) 0 0 (ceVid w)) false

/-- The list changed. -/
def State.modCinchList (s : State) (k : Nat) (f : ListRun → ListRun) : State :=
  s.modCl k fun c => { c with cinchList := f c.cinchList }

/-- An entry refused (R346). -/
def State.refuseCinch (s : State) (k offset : Nat) : State :=
  (s.modCinchList k fun l => { l with ended := true }).refuseDesc k 6 0 2 offset

/-- Whether the barrier table takes one more ARRIVE: its waiters, and those to come from unanswered arrivals. -/
def ClusterState.barrierRoom (c : ClusterState) : Bool :=
  decide (c.barriers.length + (c.cinchOps.filter fun o => ceOp o.entry.toNat == 4).length < 16)

/-- An entry issued: its packet, the gate, the watched VID. -/
def State.issueCinch (s : State) (k w offset : Nat) : State :=
  let tag := (s.cl k).cinchTag
  let gates := decide (3 ≤ ceOp w) && ceGate w && ceKind w == 0
  let s := s.modCl k fun c =>
    { c with cinchTag := (tag + 1) % 1023, cinchOps := c.cinchOps ++ [⟨tag, BitVec.ofNat 256 w, offset, s.beat⟩],
             watchedVids := if ceOp w = 3 ∧ !c.watchedVids.contains (ceVid w) then c.watchedVids ++ [ceVid w] else c.watchedVids,
             cinchList := { c.cinchList with pos := offset + 32, record := c.cinchList.record + 1,
                                             ended := decide (c.cinchList.len ≤ offset + 32) } }
  let s := if gates then s.modCore k (wtCore (ceTarget w)) fun x => { x with gates := x.gates + 1 } else s
  (s.inject (s.cePacket k w tag)).active k

/-- CINCH_LIST_ISSUE (R346): the next entry of the list. -/
def execCinchListIssue (k : Cl) (s : State) : Res :=
  .next (let k := k.val
         let c := s.cl k
         let l := c.cinchList
         if l.ended || s.halts k || decide (8 ≤ c.cinchOps.length) then s
         else if l.len < l.pos + 32 then s.refuseCinch k l.pos
         else
           let f := (s.unseal k).fetchBytes (s.taskCtx k) 0 (l.addr + l.pos) 32
           match s.listFault k f with
           | some t => t.modCinchList k fun l => { l with ended := true }
           | none =>
             let w := ofBytes (f.bytes.map (·.1))
             let waits := c.handleNamed (field w 250 245) && !c.waitMet (bitAt w 251) (field w 250 245) (field w 63 32)
             if waits || (ceOp w == 4 && !c.barrierRoom) then s
             else if !f.s.ceOk k w then f.s.refuseCinch k l.pos
             else f.s.issueCinch k w l.pos)

/-- An answered entry is done: its signal, and an ARRIVE's waiter with its armed deadline (R346, R349, R350). -/
def State.cinchEntryDone (s : State) (k gen : Nat) (o : CinchOp) : State :=
  let w := o.entry.toNat
  let s := if ceOp w = 4 then
      s.modCl k fun c => { c with barriers := c.barriers ++
        [{ vid := ceVid w, gen := gen, kind := ceKind w, target := ceTarget w, gate := ceGate w && ceKind w == 0,
           deadline := if ceDlEn w then some (o.sent + BitVec.ofNat 48 (ceDlBeats w)) else none, missRelease := bitAt w 215 }] }
    else s
  if bitAt w 244 then s.arrive k (field w 243 238) false else s

/-- A response at cluster `k`'s sequencer (R346): done, presented again at the next beat boundary, or refused. -/
def State.clusterResp (s : State) (p : Packet) (k : Nat) : State :=
  let w := cpWord p
  match firstSome (fun o => o.tag == p.tag.toNat) (s.cl k).cinchOps with
  | none => s
  | some o =>
    if cpStatus w = 2 then
      s.modCl k fun c => { c with retries := c.retries ++ [(s.cePacket k o.entry.toNat o.tag, s.beats + 1)] }
    else
      let s := s.modCl k fun c => { c with cinchOps := listErase c.cinchOps o }
      if cpStatus w = 0 then (s.cinchEntryDone k (cpGen w) o).active k else s.refuseCinch k o.offset

/-- RETRY_REPRESENT (R346, R319): the oldest request answered with a retry is presented again at its beat boundary. -/
def execRetryRepresent (k : Cl) (s : State) : Res :=
  .next (match (s.cl k.val).retries with
    | [] => s
    | (p, b) :: rest =>
      let s := if s.beats < b then s.advance (4096 * (b - s.beats) - s.now % 4096) else s
      (s.modCl k.val fun c => { c with retries := rest }).inject p)

/-! ### Deadlines (R350, R351) -/

/-- Whether a waiter's release has reached the sequencer, although it is not yet taken (R349, R351). -/
def State.releaseCame (s : State) (k : Nat) (b : BarrierWaiter) : Bool :=
  s.mesh.delivered.any fun d =>
    let w := cpWord d.packet
    d.packet.opcode == 0x3F && cpKind w == 3 && d.packet.dest == epCluster k 0 && decide (d.due ≤ s.clock)
      && cpVid w == b.vid && decide ((cpGen w + 65536 - b.gen) % 65536 < 32768)

/-- A deadline on a VID and a generation takes effect. -/
def State.deadlineMiss (s : State) (k vid gen : Nat) (release : Bool) : State :=
  let ws := (s.cl k).barriers.filter fun b => b.vid == vid && b.gen == gen && !s.releaseCame k b
  if ws.isEmpty then s
  else
    let s := (s.pulse (pgClCtrl k) 19).count (pgClCtrl k) 55 ws.length
    if release then s.freeWaiters k ws gen false else s

/-- The armed deadline that comes first. -/
def firstDeadline (now : BitVec 48) (bs : List BarrierWaiter) : Option (BarrierWaiter × BitVec 48) :=
  bs.foldl (fun b x => match x.deadline with
    | none => b
    | some d => match b with
      | none => some (x, d)
      | some (y, e) => if beatKey now d < beatKey now e then some (x, d) else some (y, e)) none

/-- The waiter's armed deadline is spent. -/
def spendDeadline (b : BarrierWaiter) : List BarrierWaiter → List BarrierWaiter
  | [] => []
  | x :: xs => if x = b then { x with deadline := none } :: xs else x :: spendDeadline b xs

/-- BARRIER_DEADLINE (R350, R351): the next deadline, armed or posted; of one beat the armed one first. -/
def execBarrierDeadline (k : Cl) (s : State) : Res :=
  .next (let k := k.val
         let armed := firstDeadline s.beat (s.cl k).barriers
         let posted := nextEntry s.beat 4 (s.cal (pgClCtrl k))
         let first := match armed, posted with
           | some (_, d), some (_, e) => decide (beatKey s.beat d ≤ beatKey s.beat e.beat)
           | some _, none => true
           | none, _ => false
         if first then
           match armed with
           | none => s
           | some (b, d) =>
             if !s.inOrder d (actionRank 4) then s
             else
               let s := s.reachBeat d
               let s := s.modCl k fun c => { c with barriers := spendDeadline b c.barriers }
               s.deadlineMiss k b.vid b.gen b.missRelease
         else match s.takeEntry (pgClCtrl k) 4 with
           | none => s
           | some (e, s) => s.deadlineMiss k (field e.arg.toNat 11 0) (field e.arg.toNat 27 12) (bitAt e.arg.toNat 28))

/-! ### Retargeting and translation (R334, R344) -/

/-- WAKE_RETARGET (R344): the move starts. -/
def execWakeRetarget (req : Req) (u : Fin 2) (value : W32) (s : State) : Res :=
  .next (if !s.pageOpen req (pgCinch u.val) then s
         else (s.setReg (pgCinch u.val) 0x4C (value.toNat % 256)).modCinch u.val fun c => { c with busy := true })

/-- Kind 2 wakes that the unit holds leave while their core has credit, in order. -/
def State.drainHeld (s : State) (u : Nat) : State :=
  let held := (s.cinchUnit u).held
  held.foldl (fun s p => s.sendWake u p) (s.modCinch u fun c => { c with held := [] })

/-- A kind 2 wake with another core as its target. -/
def retargetPacket (p : Packet) (t : Nat) : Packet :=
  { p with dest := epDispatch t,
           data := match p.data with
             | w :: ws => BitVec.ofNat 256 (setField w.toNat 95 80 t) :: ws
             | [] => [] }

/-- WAKE_RETARGET_DONE (R344): the watches and the held wakes of the old core are the new core's. -/
def execWakeRetargetDone (u : Fin 2) (s : State) : Res :=
  .next (let u := u.val
         if !(s.cinchUnit u).busy then s
         else
           let w := s.regOf (pgCinch u) 0x4C
           let old := field w 7 4
           let new := field w 3 0
           let s := s.modCinch u fun c =>
             { c with
               busy := false,
               watches := c.watches.map fun x => if x.wkind = 2 ∧ x.wtarget = old then { x with wtarget := new } else x,
               held := c.held.map fun p => if cpTarget (cpWord p) = old then retargetPacket p new else p }
           s.drainHeld u)

/-- Whether a context owns a RUNNING region. -/
def State.ctxRuns (s : State) (x : Nat) : Bool := s.regions.any fun r => r.2.state == .running && r.2.owner == x

/-- XLT_WRITE (R334). -/
def execXltWrite (req : Req) (u : Fin 2) (value : W32) (s : State) : Res :=
  .next (let u := u.val
         let n := pgCinch u
         let i := s.regOf n 0x40
         let v := value.toNat
         if !s.pageOpen req n then s
         else if s.ctxRuns (i / 128) then s.count n 7 1
         else if bitAt v 31 && (s.cinchUnit u).xlt.any (fun e =>
             e.1 != i && bitAt e.2.toNat 31 && field e.2.toNat 10 0 == field v 10 0) then s.pulse n 2
         else s.modCinch u fun c => { c with xlt := SMap.put c.xlt i (value &&& 0x800007FF#32) })

end Sys2Proof.Machine
end

