-- ==== Sys2Proof/Machine/Irq.lean ====
section
/-! DEFINITION. The interrupt controller (R46 to R53) and its commands. -/
namespace Sys2Proof.Machine

/-- Source `n` of the controller. -/
def State.source (s : State) (n : Nat) : Source := SMap.getD s.irq.sources n {}

/-- Source `n` changed by `f`. -/
def State.modSource (s : State) (n : Nat) (f : Source → Source) : State :=
  { s with irq := { s.irq with sources := SMap.mod s.irq.sources n {} f } }

/-- R46: a source is pending. -/
def State.isPending (s : State) (n : Nat) : Bool :=
  (pageInfo n).isSome && s.summaryOf n && (s.source n).active.isNone && (s.source n).settling.isNone

/-- IRQ_PRIO of a page (R30). -/
def State.irqPrio (s : State) (n : Nat) : Nat := field (s.page n).control.toNat 30 28

/-- Whether CONTROL routes the page to target `t` (R30). -/
def State.routedTo (s : State) (n t : Nat) : Bool :=
  let c := (s.page n).control.toNat
  if t < 16 then bitAt c (9 + t) else if t < 18 then bitAt c (25 + (t - 16)) else bitAt c 27

/-- Offset of target `t`'s block in the IRQC page (R47). -/
def tgtOffset (t : Nat) : Nat := 0x40 + 0x20 * t

/-- Whether target `t` may be offered source `n`: enabled for it, ENABLE = 1, STALE = 0 (R46, R48). -/
def State.eligible (s : State) (n t : Nat) : Bool :=
  let c := s.regOf pgIrqc (tgtOffset t)
  s.routedTo n t && decide (field c 2 0 < s.irqPrio n) && bitAt c 3 && !bitAt (s.regOf pgIrqc (tgtOffset t + 4)) 16

/-- The first eligible target after `p`, in cyclic order 0 to 18 (R48). -/
def State.nextTarget (s : State) (n p : Nat) : Option Nat :=
  firstSome (s.eligible n) ((upto 19).map fun i => (p + 1 + i) % 19)

/-- Target `t`'s core leaves its wait-for-interrupt state, whatever its mask (R52). -/
def State.wake (s : State) (t : Nat) : State := { s with irq := { s.irq with asleep := s.irq.asleep.filter (· != t) } }

/-- An offer to `t`, which asserts its interrupt line (R52), with the MSI-X message of R53 when `t` is the host and no source is active for it. -/
def State.offerTo (s : State) (n t : Nat) : State :=
  let s := s.modSource n fun x => { x with offer := some (t, s.clock) }
  let s := s.wake t
  if t = 18 ∧ (SMap.getD s.irq.claimed 18 []).isEmpty then s.sendMsix 64 else s

/-- INTERRUPT_OFFER (R48, R53). -/
def execInterruptOffer (src : BitVec 16) (s : State) : Res :=
  .next (let n := src.toNat
         if !s.isPending n then s.lapse n
         else if (s.source n).offer.isSome then s
         else match s.nextTarget n (s.source n).rot with
           | none => s
           | some t => s.offerTo n t)

/-- Whether source `n` is offered to target `t` (R48, R49). -/
def State.offeredTo (s : State) (n t : Nat) : Bool := (s.source n).offer.map (·.1) == some t && s.isPending n

/-- Target `t`'s interrupt line: some source is offered to it (R52). -/
def State.irqLine (s : State) (t : Nat) : Bool := s.irq.sources.any fun x => s.offeredTo x.1 t

/-- Whether source `a` goes before source `b` at a claim: higher priority, then the lower number (R49). -/
def State.claimsBefore (s : State) (a b : Nat) : Bool :=
  decide (s.irqPrio b < s.irqPrio a) || (s.irqPrio a == s.irqPrio b && decide (a < b))

/-- The offered source of highest priority, lowest number among equals, for target `t` (R49). -/
def State.bestOffer (s : State) (t : Nat) : Option Nat :=
  ((s.irq.sources.map (·.1)).filter fun n => s.offeredTo n t).foldl (fun b n => match b with
    | none => some n
    | some c => if s.claimsBefore n c then some n else some c) none

/-- Whether `req` is target `t`'s own core, or BAR0 for the host target (R49). -/
def ownTarget (req : Req) (t : Fin 19) : Bool := req.val == t.val

/-- The claim of source `n` by target `t` (R49). -/
def State.claimFor (s : State) (t n : Nat) : State :=
  let s := s.modSource n fun x => { x with active := some t, rot := t, offer := none }
  { s with irq := { s.irq with claimed := SMap.mod s.irq.claimed t [] (n :: ·) } }

/-- CLAIM (R49). -/
def execClaim (req : Req) (t : Fin 19) (s : State) : Res :=
  .next (if (s.page pgIrqc).inReset then s.emit (.readValue req.val 0) else match s.bestOffer t.val with
    | none => s.emit (.readValue req.val 0)
    | some n =>
      let v : W64 := BitVec.ofNat 64 (2 ^ 31 + n)
      if ownTarget req t then (s.claimFor t.val n).emit (.readValue req.val v) else s.emit (.readValue req.val v))

/-- COMPLETE (R51). -/
def execComplete (_req : Req) (t : Fin 19) (src : BitVec 16) (s : State) : Res :=
  .next (if (s.page pgIrqc).inReset then s else match SMap.getD s.irq.claimed t.val [] with
    | n :: rest =>
      if n = src.toNat then
        let s := { s with irq := { s.irq with claimed := SMap.put s.irq.claimed t.val rest } }
        s.modSource n fun x => { x with active := none, settling := some s.clock }
      else s.count pgIrqc 0 1
    | [] => s.count pgIrqc 0 1)

/-- SETTLE_END (R51): one beat after the retirement the source stops settling; R46 then decides whether it is pending. -/
def execSettleEnd (src : BitVec 16) (s : State) : Res :=
  .next (match (s.source src.toNat).settling with
    | none => s
    | some t => (s.reachClock (t + 4096)).modSource src.toNat fun x => { x with settling := none })

/-- STALE of target `t` is set (R50). -/
def State.goStale (s : State) (t : Nat) : State :=
  (s.setReg pgIrqc (tgtOffset t + 4) (2 ^ 16)).modPage pgIrqc fun g =>
    { g with recorded := SMap.put g.recorded (tgtOffset t + 4) (s.clock + 1) }

/-- OFFER_TIMEOUT (R6, R50): 65,536 cycles of the 1.35 GHz clock from its next edge after the offer. -/
def execOfferTimeout (src : BitVec 16) (s : State) : Res :=
  .next (let n := src.toNat
         match (s.source n).offer with
         | none => s
         | some (t, at_) =>
           if !s.isPending n then s.lapse n
           else
             let s := s.reachClock (s.limitAt at_ 2 65536)
             let s := (s.goStale t).modSource n fun x => { x with offer := none }
             match s.nextTarget n t with
             | none => s
             | some u => s.offerTo n u)

end Sys2Proof.Machine
end

