-- ==== Sys2Proof/Machine/Host.lean ====
section
/-! DEFINITION. Contexts, rings and descriptors (R357 to R373), readiness (R384), and the host commands that name no region
(R379 to R381). -/
namespace Sys2Proof.Machine

/-! ### Contexts and descriptors (R361, R369, R370) -/

/-- Context `x`. -/
def State.ctx (s : State) (x : Nat) : Context := SMap.getD s.host.contexts x {}

/-- Context `x` changed. -/
def State.modCtx (s : State) (x : Nat) (f : Context → Context) : State :=
  { s with host := { s.host with contexts := SMap.mod s.host.contexts x {} f } }

def dOp (d : Nat) : Nat := d % 256
def dTag (d : Nat) : Nat := field d 31 16
def dRegion (d : Nat) : Nat := field d 39 32
def dForce (d : Nat) : Bool := bitAt d 64
def dMode (d : Nat) : Nat := field d 112 112
def dImage (d : Nat) : Nat := field d 111 64
def dServe (d : Nat) : Bool := bitAt d 208
def dDst (d : Nat) : Nat := field d 175 128
def dLen (d : Nat) : Nat := field d 231 192
def dVid (d : Nat) : Nat := field d 75 64
def dWaitBeats (d : Nat) : Nat := field d 223 208
/-- The named clusters of RESERVE_REGION, rising. -/
def dClusters (d : Nat) : List Nat := (upto 320).filter fun k => bitAt d (128 + k)

/-- Whether every bit of a descriptor outside the listed fields is zero (R369). -/
def onlyFields (d : Nat) (fs : List (Nat × Nat)) : Bool :=
  fs.foldl (fun w f => setField w f.1 f.2 0) d == 0

/-- The bits of the common fields. -/
def commonFields : List (Nat × Nat) := [(7, 0), (31, 16), (39, 32)]

/-- The fields of a command, and whether it names a region (R370). -/
def opFields (op : Nat) : Option (List (Nat × Nat) × Bool) :=
  match op with
  | 1 => some ([(447, 128)], false)
  | 2 => some ([(64, 64)], true)
  | 3 => some ([(112, 64), (143, 128), (207, 160)], true)
  | 4 => some ([(112, 64), (159, 128), (208, 160), (255, 224)], true)
  | 5 => some ([], false)
  | 6 | 7 => some ([(75, 64), (191, 128)], false)
  | 8 => some ([(77, 64), (191, 128), (223, 208)], false)
  | 9 => some ([(111, 64), (175, 128), (231, 192)], false)
  | 10 => some ([(175, 128), (231, 192), (319, 256)], false)
  | 11 => some ([(67, 64)], true)
  | 12 | 13 => some ([(111, 64), (159, 128)], false)
  | 14 => some ([(95, 64)], false)
  | _ => none

/-- LEN and an address of COPY or FILL (R380). -/
def copyLenOk (d : Nat) : Bool := dLen d % 32 == 0 && dLen d != 0 && dDst d % 32 == 0

/-- Reserved encodings of a command's own fields (R370, R378, R380, R381, R382, R399). -/
def opValuesOk (d : Nat) : Bool :=
  match dOp d with
  | 1 => !(dClusters d).isEmpty
  | 3 => dImage d % 512 == 0
  | 4 => dImage d % 128 == 0
         && (if dServe d then field d 227 224 != 0 && field d 239 228 != 0 && field d 251 240 != 0 else true)
  | 9 => copyLenOk d && dImage d % 32 == 0
  | 10 => copyLenOk d
  | 11 => decide (field d 67 64 < 4)
  | 12 | 13 => dImage d % 4096 == 0
  | _ => true

/-- Whether a descriptor completes with BAD_COMMAND (R370). -/
def descBad (d : Nat) : Bool :=
  match opFields (dOp d) with
  | none => true
  | some (fs, region) =>
    !onlyFields d (commonFields ++ fs) || !opValuesOk d
      || !(dRegion d == 255 || (region && decide (dRegion d < 128)))

/-! ### Records (R365 to R368, R372, R373) -/

def stSuccess : Nat := 0
def stIllegal : Nat := 1
def stNotOwner : Nat := 2
def stBadCommand : Nat := 3
def stConfigInvalid : Nat := 4
def stDrainTimeout : Nat := 5
def stImageFault : Nat := 6
def stDescriptorInvalid : Nat := 7
def stMemoryFault : Nat := 8
def stUncontained : Nat := 0xC
def stAborted : Nat := 0xD
def stBeatLimit : Nat := 0xE
def stClusterBusy : Nat := 0xF
def stNoRegion : Nat := 0x10
def stNotReady : Nat := 0x11
def stTimeout : Nat := 0x12
def stNotMapped : Nat := 0x13
def stNotPermitted : Nat := 0x14
def stNoSpace : Nat := 0x15
def stMismatch : Nat := 0x16

/-- The fault layout of R373. -/
def Ending.imm (e : Ending) : Nat :=
  (e.count % 2 ^ 32) <<< 96 + (e.value % 2 ^ 48) <<< 48 + (e.code % 256) <<< 40 + (e.part % 16) <<< 36 + (e.engine % 16) <<< 32
    + (e.slot % 8) <<< 29 + (e.col % 32) <<< 24 + (e.row % 32) <<< 19 + (e.list % 4) <<< 17 + e.cluster % 512

/-- A completion record without the fields that its write fills in. -/
def recordOf (c : Command) (status imm : Nat) : BitVec 256 :=
  let d := c.desc.toNat
  BitVec.ofNat 256 ((imm % 2 ^ 128) <<< 128 + c.seq.toNat <<< 96 + dTag d <<< 80 + dOp d <<< 72 + dRegion d <<< 64
    + (status % 256) <<< 56)

/-- Entries of the rings (R361). -/
def State.sqSize (s : State) (x : Nat) : Nat := 2 ^ field (s.regOf (pgContext x) 0x40) 7 4
def State.cqSize (s : State) (x : Nat) : Nat := 2 ^ field (s.regOf (pgContext x) 0x40) 3 0

/-- Whether the completion ring is full (R367). -/
def State.cqFull (s : State) (x : Nat) : Bool :=
  ((s.ctx x).cqTail + 1) % s.cqSize x == s.regOf (pgContext x) 0x84 % s.cqSize x

/-- A record begins to wait for a slot (R367). -/
def State.noteFull (s : State) (x : Nat) : State :=
  if s.cqFull x && !(s.ctx x).waiting.isEmpty && (s.ctx x).fullSince.isNone then
    (s.pulse (pgContext x) 2).modCtx x fun c => { c with fullSince := some s.clock }
  else s

/-- No record waits for a slot any more; counter 3 has the cycles (R361, R367). -/
def State.endFull (s : State) (x : Nat) : State :=
  match (s.ctx x).fullSince with
  | some t => (s.count (pgContext x) 3 (s.clock - t)).modCtx x fun c => { c with fullSince := none }
  | none => s

/-- The command of context `x` with sequence number `seq`, if it is in progress. -/
def Context.command (c : Context) (seq : W32) : Option Command := firstSome (fun d => d.seq == seq) c.inProgress

/-- Command `seq` of context `x` completes: its record waits behind the earlier ones (R366, R371). -/
def State.complete (s : State) (x : Nat) (seq : W32) (status imm : Nat) : State :=
  match (s.ctx x).command seq with
  | none => s
  | some d =>
    (s.modCtx x fun c => { c with inProgress := listErase c.inProgress d, waiting := c.waiting ++ [recordOf d status imm] }).noteFull x

/-- A status in the fault layout (R373). -/
def State.completeFault (s : State) (x : Nat) (seq : W32) (e : Ending) : State := s.complete x seq e.status e.imm

/-- The code of a region's state (R193). -/
def regionCode : RegionState → Nat
  | .free => 0 | .reserved => 1 | .loaded => 2 | .running => 3 | .draining => 4 | .faulted => 5

/-- Whether context `x` owns region `r`. -/
def State.owns (s : State) (x r : Nat) : Bool := (s.region r).state != .free && (s.region r).owner == x && decide (r < 128)

/-- COMPLETION_WRITE (R366, R368): the oldest waiting record goes to its slot. -/
def execCompletionWrite (x : Ctx) (s : State) : Res :=
  .next (let x := x.val
         let c := s.ctx x
         match c.waiting with
         | [] => s
         | w :: rest =>
           if s.cqFull x then s
           else
             let r := field w.toNat 71 64
             let rs := if s.owns x r then regionCode (s.region r).state else 7
             let w := w.toNat + rs <<< 53 + c.sqHead <<< 32 + ofBool c.phase
             let s := (s.hostWrite (s.ctxBase x 0x50 + 32 * c.cqTail) (toBytes 32 w)).charge pgCxl x 15 32
             let tail := (c.cqTail + 1) % s.cqSize x
             let s := s.modCtx x fun c =>
               { c with waiting := rest, cqTail := tail, phase := if tail = 0 then !c.phase else c.phase, armed := false }
             let s := (s.count (pgContext x) 1 1).pulse (pgContext x) 3
             (if c.armed then s.sendMsix x else s).noteFull x)

/-! ### Readiness (R384, R385) -/

/-- CTRL_READY. -/
def State.ctrlReady (s : State) : Bool := s.boot.phase == .released

/-- Whether cluster `k` is live: brought up and not retired. -/
def State.isLive (s : State) (k : Nat) : Bool := s.ready.cd.contains (dieOf k) && !(s.cl k).retired

/-- Whether every memory-side die is ready. -/
def Ready.hbm (r : Ready) : Bool := (upto 8).all r.msd.contains

/-- MODULE_STATUS (R384). -/
def State.moduleStatus (s : State) : Nat :=
  let mask := fun (ds : List Nat) => (upto 8).foldl (fun m d => m + if ds.contains d then 2 ^ d else 0) 0
  ofBool s.ctrlReady <<< 31 + ofBool s.ready.lpddr <<< 30 + ofBool s.ready.hbm <<< 29 + mask s.ready.msd <<< 21
    + mask s.ready.cd <<< 13 + ofBool s.harness.done <<< 12 + ofBool s.ready.seamDegraded <<< 11
    + ((upto 320).filter s.isLive).length

/-- REG_ENTRY (R193). -/
def Region.entry (g : Region) : Nat :=
  regionCode g.state <<< 29 + g.owner <<< 23 + g.clusters.length <<< 14 + g.clusters.headD 0 <<< 5

/-! ### Doorbells and context registers (R360 to R363, R367, R388) -/

/-- The dispatch core that serves context `x` (R388). -/
def State.serving (s : State) (x : Nat) : Nat := if (s.ctx x).moved then (x + 8) % 16 else x % 16

/-- CONTEXT_MOVE (R388): the core's interrupt target is stale, or the core is held in reset. -/
def execContextMove (x : Ctx) (s : State) : Res :=
  .next (let t := x.val % 16
         let down := bitAt (s.regOf pgIrqc (tgtOffset t + 4)) 16 || (s.page (pgDispatch t)).inReset
         if down && !(s.ctx x.val).moved then s.modCtx x.val fun c => { c with moved := true } else s)

/-- Whether a ring size is not reserved (R361). -/
def ringLogOk (n : Nat) : Bool := decide (4 ≤ n ∧ n ≤ 12)

/-- A write to CTX_CTRL (R361, R362). -/
def State.writeCtxCtrl (s : State) (req : Req) (x : Nat) (value : W32) : State :=
  let n := pgContext x
  if !s.pageOpen req n then s
  else
    let was := bitAt (s.regOf n 0x40) 31
    let s := s.plainWrite req n 0x40 value
    let w := s.regOf n 0x40
    if !bitAt value.toNat 31 then s.setReg n 0x40 (setField w 31 31 0)
    else if was || !s.ctrlReady || !ringLogOk (field w 7 4) || !ringLogOk (field w 3 0) then s
    else
      let s := ((s.setReg n 0x40 (setField w 31 31 1)).setReg n 0x80 0).setReg n 0x84 0
      (s.endFull x).modCtx x fun c => { c with sqHead := 0, cqTail := 0, phase := true, seq := 0 }

/-- CONTEXT_ENABLE (R362). -/
def execContextEnable (req : Req) (x : Ctx) (value : W32) (s : State) : Res := .next (s.writeCtxCtrl req x.val (value ||| 0x80000000#32))

/-- CONTEXT_DISABLE (R362): fetches stop; commands already fetched run to their end. -/
def execContextDisable (req : Req) (x : Ctx) (value : W32) (s : State) : Res := .next (s.writeCtxCtrl req x.val (value &&& 0x7FFFFFFF#32))

/-- A refused doorbell (R363, R367). -/
def State.refuseDoorbell (s : State) (req x code v : Nat) : State :=
  ((s.pulse (pgContext x) 1).count (pgContext x) 2 1).report (pgContext x) 0 code (req <<< 12 + v)

/-- SQ_DOORBELL (R363). -/
def execSqDoorbell (req : Req) (x : Ctx) (value : W32) (s : State) : Res :=
  .next (let n := pgContext x.val
         let size := s.sqSize x.val
         let t := value.toNat % 4096
         let tail := s.regOf n 0x80
         let head := (s.ctx x.val).sqHead
         if !s.pageOpen req n then s
         else if (t + 4096 - tail) % size ≤ size - 1 - (tail + 4096 - head) % size then s.setReg n 0x80 t
         else s.refuseDoorbell req.val x.val 0xA0 t)

/-- CQ_DOORBELL (R367, R368). -/
def execCqDoorbell (req : Req) (x : Ctx) (value : W32) (s : State) : Res :=
  .next (let n := pgContext x.val
         let c := s.ctx x.val
         let size := s.cqSize x.val
         let h := value.toNat % 4096
         let head := s.regOf n 0x84
         if !s.pageOpen req n then s
         else if (c.cqTail + 4096 - head) % size < (h + 4096 - head) % size then s.refuseDoorbell req.val x.val 0xA1 h
         else
           let s := s.setReg n 0x84 h
           let s := if s.cqFull x.val then s else s.endFull x.val
           if !bitAt value.toNat 31 then s
           else if c.cqTail ≠ h then (s.sendMsix x.val).modCtx x.val fun c => { c with armed := false }
           else s.modCtx x.val fun c => { c with armed := true })

/-- MSIX_UNMASK (R368): a pending message is sent. -/
def execMsixUnmask (v : Fin 65) (s : State) : Res :=
  .next (let s := { s with host := { s.host with masked := listErase s.host.masked v.val } }
         if s.host.msixPending.contains v.val then
           { s with host := { s.host with msixPending := listErase s.host.msixPending v.val } }.emit (.msix v.val)
         else s)

/-- XLT_INVAL (R360): the context's cached entries are dropped. -/
def execXltInval (req : Req) (x : Ctx) (s : State) : Res :=
  .next (if !s.pageOpen req (pgContext x.val) then s
         else { s with host := { s.host with xlt := s.host.xlt.filter fun e => e.1 != x.val } })

/-! ### Bias and CXL.mem (R357, R358, R493) -/

/-- The HDM region, numbered as BIAS_INDEX, of a device address. -/
def hdmRegion (a : Nat) : Option Nat :=
  match placeOf a with
  | .lpddr _ _ => some ((a - 0x10000000000) / 2 ^ 21)
  | .hbm stack loc => some (524288 + ((loc / 2048 * 24 + stack) * 2048 + loc % 2048) / 2 ^ 21)
  | _ => none

/-- BIAS_DATA.BUSY (R358): an earlier device request to the region of the last change to host bias is outstanding. -/
def State.biasBusy (s : State) : Bool :=
  match s.host.biasChange with
  | none => false
  | some (r, t) => s.clusters.any fun c => c.2.outstanding.any fun o => decide (o.issued ≤ t) && hdmRegion o.addr == some r

/-- BIAS_CHANGE (R358): a write to BIAS_DATA, for the region that BIAS_INDEX names. -/
def execBiasChange (req : Req) (value : W32) (s : State) : Res :=
  .next (let r := s.regOf pgCxl 0x40
         if !s.pageOpen req pgCxl || decide (966656 ≤ r) then s
         else
           let rest := listErase s.host.deviceBias r
           if bitAt value.toNat 0 then { s with host := { s.host with deviceBias := r :: rest } }
           else { s with host := { s.host with
             deviceBias := rest, biasChange := if s.host.deviceBias.contains r then some (r, s.clock) else s.host.biasChange } })

/-- Whether a range's Memory_Active bit is set (R357). -/
def State.rangeActive (s : State) (range : Nat) : Bool := if range = 0 then s.ready.lpddr else s.ready.hbm

/-- Whether a chunk is unavailable to the host (R493). -/
def State.hostUnavailable (s : State) (a : Nat) : Bool :=
  match placeOf a with
  | .hbm stack loc => s.spares.unavailable stack (loc / 2048)
  | .lpddr pkg _ => s.spares.packages.contains pkg
  | _ => true

/-- Two words at device address `a` looked up in the reuse cache. -/
def State.hostLookUp (s : State) (a : Nat) (isWrite : Bool) : State :=
  match placeOf a with
  | .hbm stack loc => (s.lookUp stack loc 2 0 isWrite).1
  | _ => s

/-- CXL_MEM_REQUEST (R357): a 64 B read or write of an HDM range, charged to no context (R404). -/
def execCxlMemRequest (range : Fin 2) (off : BitVec 40) (data : Option (List Byte)) (s : State) : Res :=
  .next (let o := off.toNat / 64 * 64
         let a := (if range.val = 0 then 0x10000000000 else 0x20000000000) + o
         let gone := !s.rangeActive range.val
         match storeAddr a with
         | none => s
         | some st =>
           let s := if gone then s.count pgCxl 4 1 else s
           match data with
           | some bs =>
             if gone || s.hostUnavailable a then s
             else { s with
               mem := s.mem.putWords st (wordsOfBytes ((bs ++ List.replicate 64 0).take 64)) none }.hostLookUp a true
           | none =>
             if gone then s.emit (.cxlData (List.replicate 64 0) true)
             else if s.hostUnavailable a then (s.count pgCxl 5 1).emit (.cxlData (List.replicate 64 0) true)
             else
               let bad := s.mem.poisoned (st / 32) || s.mem.poisoned (st / 32 + 1)
               let s := s.hostLookUp a false
               (if bad then s.count pgCxl 5 1 else s).emit (.cxlData (s.mem.read st 64) bad))

/-! ### Fetching and starting commands (R364, R371) -/

/-- The lowest of the 16 places that no command of the context holds. -/
def Context.freePlace (c : Context) : Nat := (firstSome (fun p => !c.inProgress.any fun d => d.place == p) (upto 16)).getD 0

/-- DESCRIPTOR_FETCH (R364, R370). -/
def execDescriptorFetch (x : Ctx) (s : State) : Res :=
  .next (let x := x.val
         let n := pgContext x
         let c := s.ctx x
         let size := s.sqSize x
         if !bitAt (s.regOf n 0x40) 31 || c.sqHead == s.regOf n 0x80 % size || decide (16 ≤ c.inProgress.length) then s
         else
           let d := ofBytes (s.hostRead (s.ctxBase x 0x48 + 128 * c.sqHead) 128)
           let s := ((s.charge pgCxl x 14 128).count n 0 1).modCtx x fun c =>
             { c with sqHead := (c.sqHead + 1) % size, seq := c.seq + 1,
                      inProgress := c.inProgress ++ [{ seq := c.seq, desc := BitVec.ofNat 1024 d, place := c.freePlace }] }
           if descBad d then
             s.complete x c.seq stBadCommand (if dOp d = 3 ∨ dOp d = 4 then { status := stBadCommand : Ending }.imm else 0)
           else s)

/-- FENCE, SAVE_CONTEXT and RESTORE_CONTEXT (R371). -/
def isBarrierOp (op : Nat) : Bool := op == 5 || op == 12 || op == 13

/-- Whether a command may start, `before` being the context's commands in progress ahead of it in the ring (R371). -/
def mayStart (before : List Command) (d : Nat) : Bool :=
  if dOp d = 2 ∧ dForce d then true
  else
    before.all (fun c => c.started && !isBarrierOp (dOp c.desc.toNat))
      && (!isBarrierOp (dOp d) || before.isEmpty)
      && (dRegion d == 255 || before.all fun c => dRegion c.desc.toNat != dRegion d)

/-- Command `seq` of context `x`, of opcode `op`, starts now: its descriptor and the state; `none` where it may not (R371). -/
def State.startCmd (s : State) (x : Nat) (seq : W32) (op : Nat) : Option (Nat × State) :=
  let c := s.ctx x
  let before := c.inProgress.takeWhile fun d => d.seq != seq
  match c.command seq with
  | none => none
  | some d =>
    let w := d.desc.toNat
    if d.started || dOp w != op || !mayStart before w then none
    else some (w, s.modCtx x fun c =>
      { c with inProgress := c.inProgress.map fun e => if e = d then { e with started := true, start := s.beat } else e })

/-- FENCE (R371). -/
def execFence (x : Ctx) (seq : W32) (s : State) : Res :=
  .next (match s.startCmd x.val seq 5 with
    | none => s
    | some (_, s) => s.complete x.val seq stSuccess 0)

/-! ### QUERY (R381, R406) -/

/-- What QUERY returns. -/
def State.queryImm (s : State) (x r what : Nat) : Nat :=
  match what with
  | 0 => (s.region r).entry + (s.region r).lastCommit.toNat <<< 32
  | 1 => s.moduleStatus
  | 2 => s.now + ofBool s.mt.unsync <<< 64
  | _ => ((s.page (pgContext x)).counter 8).toNat + ((s.page (pgContext x)).counter 5).toNat <<< 64

/-- QUERY (R381). -/
def execQuery (x : Ctx) (seq : W32) (s : State) : Res :=
  .next (match s.startCmd x.val seq 11 with
    | none => s
    | some (d, s) =>
      let r := dRegion d
      let what := field d 67 64
      if (r != 255 || what == 0) && !s.owns x.val r then s.complete x.val seq stNotOwner 0
      else s.complete x.val seq stSuccess (s.queryImm x.val r what))

/-! ### COPY and FILL (R380) -/

/-- How a transfer stands: state, and the status and address of a fault. -/
structure Moved where
  s : State
  status : Nat := 0
  fault : Nat := 0

/-- The words of an overlapping COPY, at byte offset `off` of the destination (R380, R2). -/
def freeWords (n off : Nat) (ws : List Word256) : List Word256 :=
  ws.zipIdx.map fun w => { w.1 with
    bits := BitVec.ofNat 256 (ofBytes ((upto 32).map fun i => Config.freeCopyByte n (off + 32 * w.2 + i))) }

/-- COPY by requests that end at 2 KiB blocks: `left` bytes are still to be read, `held` words to be written at `dst`. -/
def State.copyLoop (x : Nat) (free : Option Nat) (base : Nat) : (fuel : Nat) → State → (src dst left : Nat) → List Word256 → Moved
  | 0, s, _, _, _, _ => { s := s }
  | fuel + 1, s, src, dst, left, held =>
    let have_ := 32 * held.length
    let need := min (2048 - dst % 2048) (have_ + left)
    if need = 0 then { s := s }
    else if need ≤ have_ then
      let ws := held.take (need / 32)
      let ws := match free with | some n => freeWords n (dst - base) ws | none => ws
      let r := s.memWriteOp x 0 dst ws none
      if r.2 ≠ 0 then { s := r.1, status := r.2, fault := dst }
      else State.copyLoop x free base fuel r.1 src (dst + need) left (held.drop (need / 32))
    else
      let len := min (2048 - src % 2048) left
      let r := s.memReadOp x 0 src (len / 32)
      if r.2.1 ≠ 0 then { s := r.1, status := r.2.1, fault := src }
      else State.copyLoop x free base fuel r.1 (src + len) dst (left - len) (held ++ r.2.2)

/-- FILL by requests that end at 2 KiB blocks. -/
def State.fillLoop (x : Nat) (word : W256) : (fuel : Nat) → State → (dst left : Nat) → Moved
  | 0, s, _, _ => { s := s }
  | fuel + 1, s, dst, left =>
    let len := min (2048 - dst % 2048) left
    if len = 0 then { s := s }
    else
      let r := s.memWriteOp x 0 dst (List.replicate (len / 32) ⟨word, false⟩) none
      if r.2 ≠ 0 then { s := r.1, status := r.2, fault := dst }
      else State.fillLoop x word fuel r.1 (dst + len) (left - len)

/-- The end of a COPY or FILL. -/
def State.endTransfer (x : Nat) (seq : W32) (m : Moved) : State :=
  if m.status = 0 then m.s.complete x seq stSuccess 0
  else m.s.completeFault x seq { status := stMemoryFault, value := m.fault, code := m.status }

/-- Whether the ranges of a COPY overlap. -/
def copyOverlaps (d : Nat) : Bool := decide (dImage d < dDst d + dLen d ∧ dDst d < dImage d + dLen d)

/-- COPY (R380). -/
def execCopy (x : Ctx) (seq : W32) (s : State) : Res :=
  .next (match s.startCmd x.val seq 9 with
    | none => s
    | some (d, s) =>
      let r := s.fresh
      let laps := copyOverlaps d
      let s := if laps then r.2 else s
      let free := if laps then some r.1 else none
      State.endTransfer x.val seq
        (State.copyLoop x.val free (dDst d) (2 * (dLen d / 2048) + 6) s (dImage d) (dDst d) (dLen d) []))

/-- FILL (R380). -/
def execFill (x : Ctx) (seq : W32) (s : State) : Res :=
  .next (match s.startCmd x.val seq 10 with
    | none => s
    | some (d, s) =>
      let p := field d 319 256
      let word := BitVec.ofNat 256 (p + p <<< 64 + p <<< 128 + p <<< 192)
      State.endTransfer x.val seq (State.fillLoop x.val word (dLen d / 2048 + 2) s (dDst d) (dLen d)))

/-! ### Cinch commands (R343, R379) -/

/-- The transaction number of a command's packets (log 20). -/
def cmdTag (x place : Nat) (cancel : Bool) : Nat := 32 * (x / 8) + 2 * place + ofBool cancel

/-- The cookie of a command's watch (log 20). -/
def cmdCookie (x : Nat) (seq : W32) : Nat := 2 ^ 31 + x <<< 25 + seq.toNat % 2 ^ 25

/-- The packet of a cinch command, or of its CINCH_CANCEL. -/
def State.cmdPacket (s : State) (x : Nat) (c : Command) (cancel : Bool) : Packet :=
  let d := c.desc.toNat
  let op := if cancel then 0x3C else if dOp d = 6 then 0x39 else if dOp d = 7 then 0x38 else 0x3B
  let wait := dOp d == 8
  let t := s.serving x
  cinchPacket op x (epDispatch t) (epCinch (unitOf (dVid d))) s.moduleId (cmdTag x c.place cancel)
    (cinchWord (field d 191 128) 0 (if wait then cmdCookie x c.seq else 0) (if wait then t else 0) (if wait then 2 else 0)
      (if wait then field d 77 76 else 0) false 0 0 (dVid d)) false

/-- A cinch command starts: its packet leaves. -/
def State.startCinch (s : State) (x : Nat) (seq : W32) (op : Nat) : State :=
  match s.startCmd x seq op with
  | none => s
  | some (_, s) => match (s.ctx x).command seq with
    | none => s
    | some c => s.inject (s.cmdPacket x c false)

/-- CINCH_SET of the host (R343). -/
def execCmdCinchSet (x : Ctx) (seq : W32) (s : State) : Res := .next (s.startCinch x.val seq 6)

/-- CINCH_ADD of the host (R343). -/
def execCmdCinchAdd (x : Ctx) (seq : W32) (s : State) : Res := .next (s.startCinch x.val seq 7)

/-- CINCH_WAIT (R379): a watch with the serving dispatch core as its target. -/
def execCinchWait (x : Ctx) (seq : W32) (s : State) : Res := .next (s.startCinch x.val seq 8)

/-- CINCH_WAIT_TIMEOUT (R379): CINCH_CANCEL is sent at the start beat + WAIT_BEATS. -/
def execCinchWaitTimeout (x : Ctx) (seq : W32) (s : State) : Res :=
  .next (match (s.ctx x.val).command seq with
    | none => s
    | some c =>
      let d := c.desc.toNat
      if !c.started || dOp d != 8 || dWaitBeats d == 0 || c.cancel != 0 then s
      else
        let s := s.reachBeat (c.start + BitVec.ofNat 48 (dWaitBeats d))
        (s.modWaiter (cmdCookie x.val seq) fun e => { e with cancel := 1 }).inject (s.cmdPacket x.val c true))

/-- A packet that is presented at the next beat boundary (R335, R339). -/
def State.injectNextBeat (s : State) (p : Packet) : State :=
  let wait := 4096 - s.now % 4096
  let e := entryOf p
  s.modRouter e.1 fun x => { x with held := x.held ++
    [{ packet := p, input := e.2, got := flitsOf p,
       flits := (upto (flitsOf p)).map fun i => s.clock + wait + entryLatency e.1 e.2 + i }] }

/-- Value and poison in a record (R373). -/
def cinchImm (p : Packet) : Nat := cpValue (cpWord p) + ofBool (p.wordPoison.getLsbD 0) <<< 64

/-- Whether a response with tag `tag` is for command `c` of context `x`; bit 0 marks the answer to its CINCH_CANCEL. -/
def answersTag (x tag : Nat) (c : Command) : Bool :=
  c.started && decide (6 ≤ dOp c.desc.toNat ∧ dOp c.desc.toNat ≤ 8) && cmdTag x c.place (bitAt tag 0) == tag
    && (!bitAt tag 0 || c.cancel != 0)

/-- A response at a dispatch core (R343, R379). -/
def State.dispatchResp (s : State) (p : Packet) : State :=
  let x := p.ctx.toNat
  let tag := p.tag.toNat
  match firstSome (answersTag x tag) (s.ctx x).inProgress with
  | none => s
  | some c =>
    let st := cpStatus (cpWord p)
    let cancel := bitAt tag 0
    if st = 2 then s.injectNextBeat (s.cmdPacket x c cancel)
    else if st = 1 then s.complete x c.seq stNotMapped 0
    else if st = 3 then s.complete x c.seq stBadCommand 0
    else if dOp c.desc.toNat ≠ 8 then s.complete x c.seq stSuccess (cinchImm p)
    else if cancel then s.complete x c.seq stTimeout (cinchImm p)
    else s

/-- CINCH_RESP (R335): at a cluster's sequencer or a dispatch core. -/
def execCinchResp (p : Packet) (s : State) : Res :=
  .next (let s := s.receive p
         if epKind p.dest = 0 then s.clusterResp p (epNumber p.dest)
         else if epKind p.dest = 2 then s.dispatchResp p
         else s)

/-- CINCH_WAKE (R340): kinds 0 and 1 at a cluster, kind 2 into a dispatch core's wake queue. -/
def execCinchWake (p : Packet) (s : State) : Res :=
  .next (let w := cpWord p
         if cpKind w < 2 then s.clusterWake p (epNumber p.dest)
         else if cpKind w = 2 then
           (s.receive p).modWake (cpTarget w % 16) fun q =>
             { q with records := q.records ++
                 [⟨BitVec.ofNat 32 (cpCookie w), BitVec.ofNat 12 (cpVid w), BitVec.ofNat 64 (cpValue w), p.wordPoison.getLsbD 0⟩] }
         else s)

/-- The wake of a CINCH_WAIT is popped (R379): it completes unless its cancel has taken effect at the unit. -/
def State.wakePopped (s : State) (r : WakeRecord) : State :=
  match cookieCommand r.cookie.toNat with
  | none => s
  | some (x, q) =>
    match firstSome (fun c => c.started && c.seq.toNat % 2 ^ 25 == q && dOp c.desc.toNat == 8 && c.cancel != 2)
        (s.ctx x).inProgress with
    | none => s
    | some c => s.complete x c.seq stSuccess (r.value.toNat + ofBool r.poison <<< 64)

/-- Dispatch core `t`'s oldest wake record is removed (R343): its credit goes back to the units, and a CINCH_WAIT may end. -/
def State.popWake (s : State) (t : Nat) : Option (WakeRecord × State) :=
  match (s.wakeQueue t).records with
  | [] => none
  | r :: rest =>
    let s := (s.modWake t fun q => { q with records := rest, credit := q.credit + 1 }).wakePopped r
    some (r, (s.drainHeld 0).drainHeld 1)

/-- WAKE_POP (R343): the oldest record's word 0. -/
def execWakePop (req : Req) (t : Fin 16) (s : State) : Res :=
  .next (if !s.answers req (pgDispatch t.val) then s.emit (.readValue req.val 0)
         else match s.popWake t.val with
           | none => s.emit (.readValue req.val 0)
           | some (r, t) => t.emit (.readValue req.val (BitVec.ofNat 64 (r.value.toNat % 2 ^ 32))))

end Sys2Proof.Machine
end

