-- ==== Sys2Proof/Machine/SpareMap.lean ====
section
/-! DEFINITION. The spare map (R489, R490): locations of retirements, and what Sorrel records of them (R485, R491). -/
namespace Sys2Proof.Machine

/-- Entries that a copy of the spare map holds (R489). -/
def spareRoom : Nat := 32764

/-- Location bits of a retirement (R490). -/
def coreLoc (k column row : Nat) : Nat := k + column <<< 9 + row <<< 14
def clusterLoc (k cause : Nat) : Nat := k + cause <<< 9
def rowLoc (stack pc bank row : Nat) : Nat := stack + pc <<< 5 + bank <<< 10 + row <<< 14
def channelLoc (stack pc : Nat) : Nat := stack + pc <<< 5
def laneLoc (link lane : Nat) : Nat := link + lane <<< 6
def wireLoc (seam pos link wire : Nat) (dir : Bool) : Nat := seam + pos <<< 4 + link <<< 7 + wire <<< 11 + ofBool dir <<< 21

/-- Sorrel writes the changed map into the other copy (R489). -/
def State.writeSpares (s : State) (es : List SpareEntry) : State :=
  ({ s with spares := { s.spares with entries := es, gen := s.spares.gen + 1 } }).count pgMgmt 3 1

/-- Sorrel records a retirement; a full map records nothing (R485, R491). -/
def State.addSpare (s : State) (kind loc : Nat) : State :=
  if spareRoom ≤ s.spares.entries.length then s
  else s.writeSpares (s.spares.entries ++ [{ kind := kind, loc := loc, beat := s.beat }])

end Sys2Proof.Machine
end

