-- ==== Sys2Proof/Machine/Identity.lean ====
section
/-! DEFINITION. Boot records, keys, attestation and custody (spec/18, R457 to R478): what Sorrel and the boot ROM keep in the
flash, the requests that reach it over MCTP, and the custody inputs. -/
namespace Sys2Proof.Machine

/-- Boot and identity changed. -/
def State.modBoot (s : State) (f : Boot → Boot) : State := { s with boot := f s.boot }
def State.modIdent (s : State) (f : Identity → Identity) : State := { s with ident := f s.ident }
def State.modCustody (s : State) (f : Custody → Custody) : State := { s with custody := f s.custody }

/-! ### Boot records (R457) -/

/-- Whether copy 1 holds the valid record of highest GEN; `none` where no copy is valid. -/
def Boot.current? (b : Boot) : Option Bool :=
  match b.record0.valid, b.record1.valid with
  | true, true => some (decide (b.record0.gen.toNat < b.record1.gen.toNat))
  | true, false => some false
  | false, true => some true
  | false, false => none

/-- The valid record of highest GEN. -/
def Boot.record (b : Boot) : BootRecord := if b.current? = some true then b.record1 else b.record0

/-- A new record is written into the copy that does not hold the current one, with GEN + 1. -/
def Boot.write (b : Boot) (r : BootRecord) : Boot :=
  let r := { r with valid := true, gen := b.record.gen + 1 }
  if b.current? = some true then { b with record0 := r } else { b with record1 := r }

/-- The current floor. -/
def Boot.floor (b : Boot) : Nat := b.record.floor

/-- Slot 0 A or 1 B. -/
def Boot.slot (b : Boot) (n : Nat) : FlashSlot := if n = 0 then b.slotA else b.slotB

/-- R458 on slot `n`. -/
def Boot.passes (b : Boot) (n : Nat) : Bool :=
  let x := b.slot n
  x.structureOk && decide (b.floor ≤ x.svn) && x.signatureOk && x.requiredOk && x.digestsOk

/-! ### Keys (R462 to R468) -/

/-- Trees end at these indices, and warn from these on (R467). -/
def dikEnd : Nat := 1024
def akEnd : Nat := 2 ^ 40
def dikWarnAt : Nat := 922
def akWarnAt : Nat := 989560464999

/-- The largest next free index that a good record of a tree names (R465). -/
def Identity.reserved (x : Identity) (dik : Bool) (serial : Nat) : Nat :=
  x.journal.foldl (fun n r => if r.good ∧ r.dik = dik ∧ r.serial = serial then max n r.next else n) 0

/-- The newest good record of a tree, as it is copied with write sequence `seq`. -/
def Identity.newest (x : Identity) (dik : Bool) (seq : Nat) : List JournalRecord :=
  match (x.journal.filter fun r => r.good && r.dik == dik).getLast? with
  | some r => [{ r with seq := seq }]
  | none => []

/-- The journal's next write sequence (R466). -/
def nextSeq (js : List JournalRecord) : Nat := match js.getLast? with | some r => r.seq + 1 | none => 0

/-- Records of a journal sector, and of the sectors that may hold records (R466). -/
def journalSector : Nat := 1024

/-- A record is appended; the oldest sector is erased when one remains erased (R466). -/
def Identity.append (x : Identity) (dik : Bool) (serial next : Nat) : Identity :=
  let js := if 31 * journalSector ≤ x.journal.length then
              let js := x.journal ++ x.newest true (nextSeq x.journal)
              (js ++ x.newest false (nextSeq js)).drop journalSector
            else x.journal
  { x with journal := js ++ [⟨dik, serial, next, nextSeq js, true⟩] }

/-- Indices resume at the largest reserved ones (R465): after power-on, or a reset of management core 0, which ends what ran. -/
def Identity.resume (x : Identity) : Identity :=
  let ak := max x.akNext (x.reserved false x.akSerial)
  { x with akNext := ak, akReserved := ak, dikNext := max x.dikNext (x.reserved true x.dikSerial), busyUntil := 0 }

/-- Warnings that have come about raise ATTEST event 2 (R467). -/
def State.warned (s : State) (old : Identity) : State :=
  let crossed := (old.dikNext < dikWarnAt ∧ dikWarnAt ≤ s.ident.dikNext) ∨ (old.akNext < akWarnAt ∧ akWarnAt ≤ s.ident.akNext)
  if crossed then s.pulse pgAttest 2 else s

/-- ATTEST's counter 1 shows the AK's next free index (R477). -/
def State.showAk (s : State) : State := s.setCounter pgAttest 1 s.ident.akNext

/-- An AK index is taken, its block reserved first where needed (R465): the index and the state. -/
def State.takeAk (s : State) : Nat × State :=
  let x := s.ident
  let i := x.akNext
  let s := if i < x.akReserved then s
    else (s.modIdent fun x => { (x.append false x.akSerial (i + 256)) with akReserved := i + 256 }).count pgAttest 2 1
  (i, ((s.modIdent fun x => { x with akNext := i + 1 }).showAk).warned x)

/-- A DIK index is reserved and used to sign (R465, R477). -/
def State.takeDik (s : State) : Nat × State :=
  let x := s.ident
  let i := x.dikNext
  (i, ((s.modIdent fun x => { (x.append true x.dikSerial (i + 1)) with dikNext := i + 1 }).count pgAttest 3 1).warned x)

/-- The device certificate in force: the vendor's, the self-certificate of R468, or one that was loaded. -/
def Identity.deviceCert (x : Identity) : List Byte := if x.certLoaded.isEmpty then Config.deviceCertificate else x.certLoaded

/-- The AK certificate in force. -/
def Identity.akCertificate (x : Identity) : List Byte := if x.akCert.isEmpty then Config.akCertificate else x.akCert

/-- The fields of an AK certificate that its DIK signature covers (R462). -/
def State.akFields (s : State) : List Byte :=
  toBytes 2 0x0002 ++ Config.publicKey false s.ident.akSerial ++ toBytes 4 s.ident.akSerial ++ toBytes 2 s.moduleId.toNat

/-- A new AK tree: its reservation, and its certificate under the present DIK (R468). -/
def State.newAk (s : State) : State :=
  let s := (s.modIdent fun x =>
    { (x.append false (x.akSerial + 1) 256) with akSerial := x.akSerial + 1, akNext := 0, akReserved := 256 }).count pgAttest 2 1
  let (i, s) := s.takeDik
  let fields := s.akFields
  (s.modIdent fun x => { x with akCert := fields ++ Config.signature true x.dikSerial i fields }).showAk

/-! ### Status words (R476 to R478) -/

/-- FLASH STATUS. -/
def State.flashStatus (s : State) : Nat :=
  let b := s.boot
  b.runSlot <<< 29 + ofBool b.fallback <<< 28 + ofBool b.trial <<< 27 + ((b.slot b.runSlot).svn % 1024) <<< 17
    + (b.floor % 1024) <<< 7

/-- ATTEST STATUS. -/
def State.attestStatus (s : State) : Nat :=
  let x := s.ident
  ofBool x.ok <<< 29 + ofBool x.uncertified <<< 28 + ofBool (decide (dikWarnAt ≤ x.dikNext)) <<< 27
    + ofBool (decide (akWarnAt ≤ x.akNext)) <<< 26 + ofBool (decide (dikEnd ≤ x.dikNext)) <<< 25
    + ofBool (decide (akEnd ≤ x.akNext)) <<< 24 + (x.rekeys % 65536) <<< 8

/-- The most samples that an open window may have left at management cycle `m`, one sample every 100,000 (R471). -/
def Custody.windowBound (c : Custody) (m : Nat) : Nat := 60000 - min 59999 ((m - c.openedAt) / 100000)

/-- CUSTODY STATUS. -/
def State.custodyStatus (s : State) : Nat :=
  let c := s.custody
  let w := decide (0 < c.window)
  ofBool c.present <<< 29 + ofBool c.strap <<< 28 + ofBool w <<< 27 + ofBool c.sealOpen <<< 26 + ofBool c.latched <<< 25
    + (if w then 1 + Config.windowLeft s.clock % c.windowBound s.mgmtClock else 0)

/-! ### MCTP requests (R469, R470, R474) -/

/-- A response: the body's header, a status, and what follows it. -/
def State.respond (s : State) (code : Nat) (tag : Byte) (status : Nat) (body : List Byte) : State :=
  s.emit (.mctp (toBytes 4 Config.enterpriseNumber.toNat ++ toBytes 1 code ++ [tag] ++ toBytes 1 status ++ body))

/-- The longest that a request runs, where the spec bounds it: 40 ms for a report, 1.2 ms more with a new block (R470). -/
def State.requestTime (s : State) (code : Nat) : Nat :=
  let n := Config.requestCycles s.clock code
  if code = 0x02 then min n (4000000 + if s.ident.akNext < s.ident.akReserved then 0 else 120000) else n

/-- A request reaches Sorrel, which answers 0x05 while another runs; else it runs `f` (R456, R469). -/
def State.request (s : State) (code : Nat) (tag : Byte) (f : State → State) : State :=
  if !s.boot.sorrelUp then s
  else if s.mgmtClock < s.ident.busyUntil then s.respond code tag 0x05 []
  else f (s.modIdent fun x => { x with busyUntil := s.mgmtClock + s.requestTime code })

/-- A custody-class request without presence (R474). -/
def State.refuseRequest (s : State) (code : Nat) (tag : Byte) : State :=
  ((s.pulse pgCustody 2).count pgCustody 0 1).respond code tag 0x02 []

/-- GET_CERTS (R469). -/
def execGetCerts (tag : Byte) (s : State) : Res :=
  .next (s.request 0x01 tag fun s => s.respond 0x01 tag 0 (s.ident.deviceCert ++ s.ident.akCertificate))

/-- GET_STATUS (R469). -/
def execGetStatus (tag : Byte) (s : State) : Res :=
  .next (s.request 0x03 tag fun s =>
    s.respond 0x03 tag 0 (toBytes 4 s.attestStatus ++ toBytes 4 s.custodyStatus ++ toBytes 4 s.flashStatus))

/-- An entry of the spare map (R490). -/
def SpareEntry.bytes (e : SpareEntry) : List Byte :=
  toBytes 1 e.kind ++ toBytes 1 (ofBool e.repaired) ++ toBytes 2 0 ++ toBytes 4 e.loc ++ toBytes 6 e.beat.toNat ++ toBytes 2 0

/-- The valid copy of the spare map: bytes 0 to 31 of its header, its digest, its entries (R489). -/
def Spares.bytes (x : Spares) : List Byte :=
  let head := toBytes 4 0x53504152 ++ toBytes 4 x.gen ++ toBytes 4 x.entries.length ++ toBytes 20 0
  let es := x.entries.flatMap (·.bytes)
  head ++ toBytes 32 (Config.shake256 (head ++ es)).toNat ++ es

/-- LIVE_MAP word `w` (R384). -/
def State.liveWord (s : State) (w : Nat) : Nat :=
  (upto 32).foldl (fun n i => n + if s.isLive (32 * w + i) then 2 ^ i else 0) 0

/-- FLAGS of a report (R470). -/
def State.reportFlags (s : State) : Nat :=
  ofBool s.mt.unsync + 2 * ofBool s.custody.latched + 4 * ofBool s.custody.sealOpen + 8 * ofBool s.custody.present
    + 16 * ofBool s.ident.uncertified + 32 * ofBool s.boot.fallback + 64 * ofBool s.boot.trial + 128 * ofBool s.boot.mgmt0Reset

/-- Bytes 0 to 167 of a report (R470). -/
def State.report168 (s : State) (nonce : BitVec 256) (index : Nat) : List Byte :=
  let b := s.boot
  let digest := fun (bs : List Byte) => toBytes 32 (Config.shake256 bs).toNat
  toBytes 4 0x54505452 ++ toBytes 2 1 ++ toBytes 2 s.moduleId.toNat ++ toBytes 32 nonce.toNat ++ toBytes 8 s.now
    ++ toBytes 1 s.reportFlags ++ toBytes 1 b.runSlot ++ toBytes 2 (b.slot b.runSlot).svn ++ toBytes 2 b.floor
    ++ toBytes 2 s.ident.rekeys ++ toBytes 4 s.custody.acts ++ toBytes 4 b.boots
    ++ digest (b.slot b.runSlot).manifest ++ digest s.spares.bytes
    ++ digest ((upto 10).flatMap fun w => toBytes 4 (s.liveWord w)) ++ toBytes 8 (index % 2 ^ 40)

/-- ATTEST (R465, R469, R470). -/
def execAttest (tag : Byte) (nonce : BitVec 256) (s : State) : Res :=
  .next (s.request 0x02 tag fun s =>
    if !s.ident.ok then s.respond 0x02 tag 0x03 []
    else if akEnd ≤ s.ident.akNext then s.respond 0x02 tag 0x04 []
    else
      let head := s.report168 nonce s.ident.akNext
      let (i, s) := s.takeAk
      let s := (s.count pgAttest 0 1).pulse pgAttest 1
      s.respond 0x02 tag 0 (head ++ Config.signature false s.ident.akSerial i head))

/-- A custody-class request: refused without presence (R472, R474), and one about keys answered 0x03 without them (R460). -/
def State.custodyRequest (s : State) (code : Nat) (tag : Byte) (keys : Bool) (f : State → State) : State :=
  s.request code tag fun s =>
    if !s.custody.present then s.refuseRequest code tag
    else if keys && !s.ident.ok then s.respond code tag 0x03 []
    else f s

/-- REPLACE_TREE (R468, R469). -/
def execReplaceTree (tag : Byte) (s : State) : Res :=
  .next (s.custodyRequest 0x10 tag true fun s =>
    if dikEnd ≤ s.ident.dikNext then s.respond 0x10 tag 0x04 []
    else
      let s := s.newAk.logCustody 5 16
      s.respond 0x10 tag 0 s.ident.akCertificate)

/-- REKEY (R468, R469): a new DIK with its self-certificate, and a new AK under it. -/
def execRekey (tag : Byte) (s : State) : Res :=
  .next (s.custodyRequest 0x11 tag true fun s =>
    let s := s.modIdent fun x =>
      { x with dikSerial := x.dikSerial + 1, dikNext := 0, uncertified := true, rekeys := x.rekeys + 1,
               certLoaded := Config.selfCertificate (x.dikSerial + 1) }
    let s := s.newAk
    let s := (s.modCustody fun c => { c with latched := c.latched && c.sealOpen }).logCustody 4 16
    s.respond 0x11 tag 0 (s.ident.deviceCert ++ s.ident.akCertificate))

/-- LOAD_DIK_CERT (R468, R469). -/
def execLoadDikCert (tag : Byte) (cert : List Byte) (s : State) : Res :=
  .next (s.custodyRequest 0x12 tag true fun s =>
    let s := (s.modIdent fun x => { x with certLoaded := cert, uncertified := false }).logCustody 4 16
    s.respond 0x12 tag 0 [])

/-- The floor set by a custody action (R475, R476). -/
def State.setFloorTo (s : State) (req v : Nat) : State :=
  (s.modBoot fun b => b.write { b.record with floor := v }).logCustody 1 req

/-- SET_FLOOR (R469, R475). A floor above 1,023 is reserved and leaves the floor (R11). -/
def execSetFloor (tag : Byte) (floor : BitVec 16) (s : State) : Res :=
  .next (s.custodyRequest 0x13 tag false fun s =>
    (if floor.toNat < 1024 then s.setFloorTo 16 floor.toNat else s).respond 0x13 tag 0 [])

/-- FORECAST_RECEIVED (R469): ignored, and answered with nothing. -/
def execForecastReceived (_body : List Byte) (s : State) : Res := .next s

/-! ### BOOT_CTRL (R459, R476) -/

/-- CONFIRM (R459): management core 0 confirms the running trial. -/
def execConfirm (req : Req) (s : State) : Res :=
  .next (if req.val ≠ 16 ∨ !s.pageOpen req pgFlash ∨ !s.boot.trial then s
         else s.modBoot fun b =>
           let r := b.record
           let x := b.slot b.runSlot
           let floor := if x.raiseFloor then max r.floor x.svn else r.floor
           { (b.write { r with pref := b.runSlot, trial := false, floor := floor }) with trial := false })

/-- FLOOR_RAISE (R476). -/
def execFloorRaise (req : Req) (v : BitVec 10) (s : State) : Res :=
  .next (if req.val ≠ 16 ∨ !s.pageOpen req pgFlash ∨ v.toNat ≤ s.boot.floor then s
         else s.modBoot fun b => b.write { b.record with floor := v.toNat })

/-- FLOOR_SET (R474, R475, R476): a cw field, which every requester may write. -/
def execFloorSet (req : Req) (v : BitVec 10) (s : State) : Res :=
  .next (if (s.page pgFlash).inReset || v.toNat == s.boot.floor then s
         else if s.custody.present then s.setFloorTo req.val v.toNat else s.refuseCw req.val pgFlash 0x40)

/-! ### Custody inputs (R471, R473, R478) -/

/-- The custody logic samples while the module has power. -/
def Boot.powered (b : Boot) : Bool := b.phase != .off && b.phase != .quiesced

/-- The inputs changed; presence that begins pulses event 1 (R478). -/
def State.sample (s : State) (f : Custody → Custody) : State :=
  let was := s.custody.present
  let s := s.modCustody f
  if s.custody.present && !was then s.pulse pgCustody 1 else s

/-- BUTTON_PRESS (R471): a window of 60,000 samples starts. The button is not sampled while the management plane is stalled (R24). -/
def execButtonPress (s : State) : Res :=
  .next (if !s.boot.powered || s.boot.mgmtStalled then s
         else (s.count pgCustody 3 1).sample fun c => { c with window := 60000, openedAt := s.mgmtClock })

/-- WINDOW_END (R471): 60,000 samples after the window opened. -/
def execWindowEnd (s : State) : Res :=
  .next (if s.custody.window = 0 then s
         else (s.sample fun c => { c with window := 0 }).reachMgmt (s.custody.openedAt + 60000 * 100000))

/-- SVC_STRAP_CHANGE (R471). -/
def execSvcStrapChange (closed : Bool) (s : State) : Res :=
  .next (if s.boot.powered then s.sample fun c => { c with strap := closed } else s)

/-- The first open sample of the seal (R471, R473): presence ends, the latch and its record. -/
def State.openSeal (s : State) : State :=
  if s.custody.sealOpen then s
  else
    let s := (s.pulse pgCustody 3).count pgCustody 2 1
    s.modCustody fun c =>
      { c with sealOpen := true, latched := true, acts := c.acts + 1,
               log := logRing (c.log ++ [⟨0, s.mt.counter, 16, Config.custodyDigest c.acts⟩]) }

/-- SEAL_OPEN (R473, R506). -/
def execSealOpen (s : State) : Res := .next (if s.boot.powered then s.openSeal else s)

/-- SEAL_INTACT (R471, R506). -/
def execSealIntact (s : State) : Res :=
  .next (if s.boot.powered then s.sample fun c => { c with sealOpen := false } else s)

end Sys2Proof.Machine
end

