-- ==== Sys2Proof/Machine/Fabric.lean ====
section
/-! DEFINITION. The slot fabric (spec/07): links and crossings (R173, R174), launches, hops, credits and slack rows, with
the Lacing taps and Harness channels that a link may end at. -/
namespace Sys2Proof.Machine

/-! ### Links (R165, R173, R174) -/

/-- The number of a direction (R111). -/
def dirNum : Dir → Nat
  | .north => 0
  | .east => 1
  | .south => 2
  | .west => 3

/-- The direction of a number. -/
def dirOf (n : Nat) : Dir := if n = 0 then .north else if n = 1 then .east else if n = 2 then .south else .west

/-- The far end of a link: a core or a seam line (the numbers of `Flight.dest`), the link of arrival, the added rounds `L`. -/
structure FarEnd where
  dest : Nat
  dir : Dir
  rounds : Nat
deriving DecidableEq, Repr

/-- The number of core (k, i, j). -/
def coreAt (k i j : Nat) : Nat := 1024 * k + 32 * i + j

/-- The number of seam line `line` of I/O die `io` (R437). -/
def seamLine (io line : Nat) : Nat := 327680 + 80 * io + line

/-- POS_OK of a seam's cluster position (R175); seam edge 0 north, 1 east, 2 south, 3 west. -/
def State.posOk (s : State) (d edge pos : Nat) : Bool := bitAt (s.reg (pgSeam d edge) 0x40) pos

/-- The far end of core (k, n)'s link `d`, where that link exists (R173, R174, R175). -/
def State.farEnd (s : State) (k n : Nat) (d : Dir) : Option FarEnd :=
  let i := n / 32
  let j := n % 32
  let die := k / 40
  let x := k % 8
  let y := k % 40 / 8
  match d with
  | .north =>
    if 0 < i then some ⟨coreAt k (i - 1) j, .south, 0⟩
    else if 0 < y then some ⟨coreAt (k - 8) 31 j, .south, 1⟩ else none
  | .south =>
    if i < 31 then some ⟨coreAt k (i + 1) j, .north, 0⟩
    else if y < 4 then some ⟨coreAt (k + 8) 0 j, .north, 1⟩
    else if j % 4 = 0 ∧ s.posOk die 2 x then some ⟨coreAt (if die < 4 then k + 160 else k - 160) 31 j, .south, 3⟩ else none
  | .east =>
    if j < 31 then some ⟨coreAt k i (j + 1), .west, 0⟩
    else if x < 7 then some ⟨coreAt (k + 1) i 0, .west, 1⟩
    else if i % 4 = 0 ∧ s.posOk die 1 y then
      if die % 4 < 3 then some ⟨coreAt (k + 33) i 0, .west, 3⟩
      else some ⟨seamLine 1 (40 * (die / 4) + 8 * y + i / 4), .west, 2⟩
    else none
  | .west =>
    if 0 < j then some ⟨coreAt k i (j - 1), .east, 0⟩
    else if 0 < x then some ⟨coreAt (k - 1) i 31, .east, 1⟩
    else if i % 4 = 0 ∧ s.posOk die 3 y then
      if 0 < die % 4 then some ⟨coreAt (k - 33) i 31, .east, 3⟩
      else some ⟨seamLine 0 (40 * (die / 4) + 8 * y + i / 4), .east, 2⟩
    else none

/-- The cluster that owns a seam line: its I/O die and line number. -/
def lineCluster (io line : Nat) : Nat :=
  let die := (if io = 0 then 0 else 3) + 4 * (line / 40)
  40 * die + 8 * (line % 40 / 8) + (if io = 0 then 0 else 7)

/-- The edge core of a seam line. -/
def lineCore (io line : Nat) : Nat := 32 * (4 * (line % 8)) + (if io = 0 then 0 else 31)

/-- Whether tokens and credits cross between two clusters (R190). -/
def State.sameOwner (s : State) (k l : Nat) : Bool :=
  k == l || (match s.ownerOf k, s.ownerOf l with
    | some a, some b => a == b
    | _, _ => false)

/-- Whether the link between two clusters is a border link (R190). -/
def State.isBorder (s : State) (k l : Nat) : Bool :=
  k != l && (match s.regionOf? k, s.regionOf? l with
    | some (a, _), some (b, _) => a != b
    | _, _ => true)

/-! ### Lacing taps and sources on a link (R299 to R302) -/

/-- Fields of a Lacing descriptor (R299). -/
def lcOp (w : Nat) : Nat := field w 127 124
def lcEdge (w : Nat) : Nat := field w 123 122
def lcLines (w : Nat) : Nat := 8 * 2 ^ field w 121 120
def lcTerminal (w : Nat) : Bool := bitAt w 112
def lcFold (w : Nat) : Nat := field w 109 107
def lcSpacing (w : Nat) : Nat := max 1 (16 / 2 ^ field w 115 113)
def lcHolds (w φ : Nat) : Bool := (φ + 16 - field w 119 116) % lcSpacing w == 0

/-- The bits of an active descriptor. -/
def LacingRun.bits (r : LacingRun) : Nat := r.desc.bits.toNat

/-- The line of an edge core: its place along the edge is line × 32 ÷ L. -/
def lcLineOf (w n : Nat) : Option Nat :=
  let e := lcEdge w
  let i := n / 32
  let j := n % 32
  let onEdge := if e = 0 then i == 0 else if e = 1 then j == 31 else if e = 2 then i == 31 else j == 0
  let pos := if e = 0 ∨ e = 2 then j else i
  let step := 32 / lcLines w
  if onEdge && pos % max 1 step == 0 then some (pos / max 1 step) else none

/-- The core of a line. -/
def lcCoreOf (w line : Nat) : Nat :=
  let p := line * (32 / lcLines w)
  match lcEdge w with
  | 0 => p
  | 1 => 32 * p + 31
  | 2 => 32 * 31 + p
  | _ => 32 * p

/-- The active TAP that observes core `n`'s link `d` for a fold and phase: its place and line. -/
def ClusterState.tapAt (c : ClusterState) (n d fold φ : Nat) : Option (Nat × LacingRun × Nat) :=
  (c.lacing.active.filterMap fun r =>
    let w := r.2.bits
    if lcOp w = 1 ∧ lcEdge w = d ∧ lcFold w = fold ∧ lcHolds w φ then
      (lcLineOf w n).map fun line => (r.1, r.2, line)
    else none).head?

/-- The active SOURCE that drives core `n`'s outgoing link `d` in a phase: its place and line. -/
def ClusterState.sourceAt (c : ClusterState) (n d φ : Nat) : Option (Nat × LacingRun × Nat) :=
  (c.lacing.active.filterMap fun r =>
    let w := r.2.bits
    if lcOp w = 2 ∧ lcEdge w = d ∧ lcHolds w φ then (lcLineOf w n).map fun line => (r.1, r.2, line) else none).head?

/-- Tokens of a line that belong to one row (R300). -/
def lcPerRow (w : Nat) : Nat := 32 / lcLines w

/-- Whether a TAP keeps row `r` (R301). -/
def lcKeeps (w r : Nat) : Bool := decide (field w 47 24 ≤ r ∧ r < field w 47 24 + field w 23 0)

/-- A TAP takes a token of a line; a token of an unkept row frees its room at once (R301). -/
def LacingRun.take (r : LacingRun) (line : Nat) (tok : Token) : LacingRun × Bool :=
  let m := SMap.getD r.arrived line 0
  let keep := lcKeeps r.bits (m / lcPerRow r.bits)
  ({ r with arrived := SMap.put r.arrived line (m + 1)
            tokens := SMap.put r.tokens line (SMap.getD r.tokens line [] ++ [tok]) }, !keep)

/-! ### Driving a link (R166, R169) -/

/-- A fold collision (R169): error 0x60, the task ends, its region becomes FAULTED. -/
def State.foldCollision (s : State) (k n link phase fold : Nat) : State :=
  let s := s.uncontained k (pgClCtrl k) 0x60 ((n / 32) <<< 15 + (n % 32) <<< 10 + link <<< 8 + phase <<< 4 + fold) 9
  match s.regionOf? k with
  | some (r, _) => s.modRegion r fun g => { g with state := .faulted }
  | none => s

/-- Flights with one more; of two on one link in one cycle the one launched earlier stays, then the lower fold: the flights, and
the fold discarded. -/
def addFlight (fs : List Flight) (x : Flight) : List Flight × Option Nat :=
  match firstSome (fun y => y.dest == x.dest && y.dir == x.dir && y.due == x.due) fs with
  | none => (fs ++ [x], none)
  | some y =>
    if y.launched < x.launched ∨ (y.launched = x.launched ∧ y.tok.fold.toNat ≤ x.tok.fold.toNat) then (fs, some x.tok.fold.toNat)
    else (listErase fs y ++ [x], some y.tok.fold.toNat)

/-- A token or credit comes to cluster `k` from cluster `l`, or passes an I/O seam: over a border link it breaks R513 on both sides. -/
def State.crosses (s : State) (k : Nat) (l : Option Nat) : State :=
  match l with
  | some l => if s.isBorder k l then (s.unseal k).unseal l else s
  | none => s.unseal k

/-- Core (k, n) drives a token onto its link `d` now. From a closed region circuits that leave it carry idle (R205). -/
def State.driveLink (s : State) (k n : Nat) (d : Dir) (tok : Token) (launched : Nat) : State :=
  match s.farEnd k n d with
  | none => s
  | some e =>
    let l := if e.dest < 327680 then e.dest / 1024 else lineCluster ((e.dest - 327680) / 80) ((e.dest - 327680) % 80)
    let leaves := decide (327680 ≤ e.dest) || s.isBorder k l
    if (s.cl k).isShut && leaves then s
    else
      let (fs, lost) := addFlight s.flights ⟨e.dest, e.dir, s.clock + 1 + 16 * e.rounds, launched, tok⟩
      let s := { s with flights := fs }
      let s := if 327680 ≤ e.dest then s.crosses k none else s
      match lost with
      | none => s
      | some f => s.foldCollision k n (dirNum d) s.phase f

/-- A delivery that a switchbox makes lands ahead of the core's own results of its cycle (R79). -/
def CoreState.landFirst (c : CoreState) (l : Landing) : CoreState :=
  { c with landing := (c.landing.filter fun x => decide (x.due < l.due)) ++ [l] ++ c.landing.filter fun x => decide (l.due ≤ x.due) }

/-- A token driven onto the outputs of route `r` of its slot: links, and the local queue (R166). -/
def State.driveRoute (s : State) (k n r : Nat) (tok : Token) (launched : Nat) : State :=
  let w := (s.core k n).word tok.fold.toNat
  let s := (upto 4).foldl (fun s d => if rtDrives w r d then s.driveLink k n (dirOf d) tok launched else s) s
  if rtLocal w r then s.modCore k n (·.landFirst ⟨s.clock, .queue (cwLocalQ w r), tok, s.clock⟩) else s

/-! ### PORT_LAUNCH (R167) -/

/-- A quiet round of `FAB_CTRL.QUIET_ROUNDS` before a switch that changes the fold (R169). -/
def State.quiet (s : State) (k : Nat) : Bool :=
  let q := 16 * field (s.reg (pgClCtrl k) 0x31C 1) 15 8
  let near := fun b => decide (0 < s.cyclesToBeat b ∧ s.cyclesToBeat b ≤ q)
  let f := (s.cl k).activeFold
  (s.cal (pgClCtrl k)).any (fun e => e.action == 1 && e.arg.toNat % 8 != f && near e.beat)
  || (s.cl k).armed.any fun a => a.fold != f && near a.beat

/-- Cycles until a phase of the route. -/
def phaseWait (w r now : Nat) : Nat := (firstSome (fun i => rtHolds w r ((now + i) % 16)) (upto 16)).getD 0

/-- PORT_LAUNCH (R167): the oldest token of port `p`'s buffer leaves in the first cycle of its route. -/
def execPortLaunch (c : CoreId) (p : Fin 4) (s : State) : Res :=
  .next (let k := c.k.val
         let n := coreNum c
         match SMap.getD (s.core k n).launch p.val [] with
         | [] => s
         | e :: rest =>
           let s := s.reachClock (max e.entered (SMap.getD (s.core k n).nextLaunch p.val 0))
           let w := (s.core k n).word e.slot
           let s := s.advance (phaseWait w e.route s.now)
           if !(s.portOpen k) || s.quiet k then
             s.modCore k n fun x => { x with nextLaunch := SMap.put x.nextLaunch p.val (s.clock + 1) }
           else
             let s := s.modCore k n fun x =>
               { x with launch := SMap.put x.launch p.val rest
                        nextLaunch := SMap.put x.nextLaunch p.val (s.clock + 1)
                        credit := SMap.mod x.credit (4 * e.slot + e.route) {} fun v => { v with count := v.count - 1 } }
             (s.driveRoute k n e.route e.tok s.clock).active k)

/-! ### TOKEN_HOP (R166, R178, R205, R301) -/

/-- An unrouted arrival (R178). -/
def State.unrouted (s : State) (k n fold link phase : Nat) : State :=
  let w := 2 ^ 31 + 3 <<< 28 + (n / 32) <<< 23 + (n % 32) <<< 18 + fold <<< 15 + link <<< 10 + phase <<< 6
  ((s.firstRecord (pgClCtrl k) 0x318 w).pulse (pgClCtrl k) 17).count (pgClCtrl k) 47 1

/-- The earliest flight to a place and link, with its position. -/
def nextFlight (fs : List Flight) (dest : Nat) (d : Dir) : Option Flight :=
  fs.foldl (fun b x =>
    if x.dest = dest ∧ x.dir = d then
      match b with
      | none => some x
      | some y => if x.due < y.due then some x else some y
    else b) none

/-- The cluster on the other side of a link of core (k, n), if there is a core there. -/
def State.acrossCluster (s : State) (k n : Nat) (d : Dir) : Option Nat :=
  match s.farEnd k n d with
  | some e => if e.dest < 327680 then some (e.dest / 1024) else none
  | none => none

/-- A TAP of cluster `k` takes a token; the room of an unkept token goes back at once, and what it frees is `true`. -/
def State.tapToken (s : State) (k n d : Nat) (tok : Token) : State × Bool :=
  match (s.cl k).tapAt n d tok.fold.toNat s.phase with
  | none => (s, false)
  | some (i, r, line) =>
    let (r', free) := r.take line tok
    (s.modCl k fun c => { c with lacing := { c.lacing with active := SMap.put c.lacing.active i r' } }, free)

/-! ### Credits (R170 to R172) -/

/-- A phase that route `r` holds. -/
def rtPhase (w r : Nat) : Nat := field (cwRoute w r) 15 12

/-- The branches of route `r` of slot `f`: links 0 to 3, 4 the local queue, 5 a Lacing tap (R172, R301). -/
def State.branches (s : State) (k n f r : Nat) : List Nat :=
  let c := s.core k n
  let w := c.word f
  (upto 4).filter (rtDrives w r) ++ (if rtLocal w r then [4] else [])
  ++ (if rtIn w r < 4 ∧ ((s.cl k).tapAt n (rtIn w r) f (rtPhase w r)).isSome then [5] else [])

/-- Credits do not cross outward from a region that is draining or closed (R202, R205). -/
def State.withholds (s : State) (k : Nat) : Bool :=
  match s.regionOf? k with
  | some (_, g) => g.state == .draining || (s.cl k).isShut
  | none => false

/-- Whether a channel holds phase `φ` (R437). -/
def Channel.holds (c : Channel) (φ : Nat) : Bool := (φ + 16 - c.base) % max 1 (16 / 2 ^ c.log2) == 0

/-- Whether the channel's seam line belongs to its context (R442). -/
def State.ownsLine (s : State) (io : Nat) (c : Channel) : Bool := s.ownerOf (lineCluster io c.line) == some c.ctx

/-- The inbound channel that drives a seam line in a phase and takes credits of a fold: link and channel (R437, R442). -/
def State.inboundAt (s : State) (io line f φ : Nat) : Option (Nat × Nat) :=
  (s.harness.links.flatMap fun l => l.2.inbound.filterMap fun c =>
    if l.1 / 24 = io ∧ c.2.mode ≠ .closed ∧ c.2.line = line ∧ c.2.fold = f ∧ c.2.holds φ ∧ s.ownsLine io c.2 then
      some (l.1, c.1) else none).head?

/-- The harness changed at one channel. -/
def State.modChannel (s : State) (inbound : Bool) (l c : Nat) (f : Channel → Channel) : State :=
  { s with harness := { s.harness with links := SMap.mod s.harness.links l {} fun x =>
      if inbound then { x with inbound := SMap.mod x.inbound c {} f } else { x with outbound := SMap.mod x.outbound c {} f } } }

/-- Branch key of R172. -/
def branchKey (f r b : Nat) : Nat := 8 * (4 * f + r) + b

/-- `m` credits reach branch `b` of route `r` of slot `f` (R172). -/
def CoreState.addBranch (c : CoreState) (f r b m : Nat) : CoreState :=
  { c with branch := SMap.mod c.branch (branchKey f r b) 0 (· + m) }

/-- An origin's counter takes a credit in cycle `t` (R171). -/
def CreditCount.take (x : CreditCount) (t : Nat) : CreditCount :=
  { count := (x.count + 1) % 256, last := t + 1, added := (if x.last = t + 1 then x.added else 0) + 1 }

/-- The phase in which the upstream end drives a link whose credit crosses in phase `p` (R170): 15 − `p`. -/
def creditPhase (p : Nat) : Nat := (15 + 16 - p % 16) % 16

/-- Whether a credit for route `r` may cross to the route's input link in phase `p`: the route holds 15 − `p` on that link (R170). -/
def rtCredits (w r p : Nat) : Bool := rtHolds w r ((creditPhase p + 1) % 16)

/-- The credit of fold `f` that crosses now from core (k, n) on the lane of the data link that ends at its link `d` (R165, R170). -/
def State.laneOf (s : State) (k n f : Nat) (d : Dir) : Option LaneCredit :=
  (s.farEnd k n d).map fun e =>
    { dest := e.dest, dir := e.dir, fold := f, phase := creditPhase s.phase, due := s.clock + 1 + 16 * e.rounds }

/-- Whether a lane has carried its one credit of the fold in this cycle (R170). -/
def State.laneTaken (s : State) (x : LaneCredit) : Bool :=
  s.lanes.any fun y => y.dest == x.dest && y.dir == x.dir && y.fold == x.fold && y.due == x.due

/-- Whether credits are withheld at core (k, n)'s link `d`: outward across a border (R202, R205). -/
def State.heldBack (s : State) (k n : Nat) (d : Dir) : Bool :=
  s.withholds k && match s.acrossCluster k n d with
    | some l => s.isBorder k l
    | none => true

/-- The credit on its lane; across a link that leads nowhere it is lost. -/
def State.sendCredit (s : State) (k n f : Nat) (d : Dir) : State :=
  match s.laneOf k n f d with
  | some x => { s with lanes := s.lanes ++ [x] }
  | none => s

/-- Whether a credit for route `r` of slot `f` can leave core (k, n)'s switchbox in this cycle: to its own counter once a cycle, or on
the free lane of the route's input link in a credit phase, where credits are not withheld (R170 to R172, R202). -/
def State.creditOpen (s : State) (k n f r : Nat) : Bool :=
  let c := s.core k n
  let w := c.word f
  if 4 ≤ rtIn w r then (SMap.getD c.credit (4 * f + r) {}).last != s.clock + 1
  else
    let d := dirOf (rtIn w r)
    rtCredits w r s.phase && !s.heldBack k n d && !(match s.laneOf k n f d with
      | some x => s.laneTaken x
      | none => false)

/-- Core (k, n)'s switchbox passes one credit of route `r` of slot `f` upstream, and lowers every branch count, where every count is at
least one and the credit can leave in this cycle; else the credits stay (R171, R172). -/
def State.passCredit (s : State) (k n f r : Nat) : State :=
  let c := s.core k n
  let w := c.word f
  let bs := s.branches k n f r
  if !rtValid w r || bs.any (fun b => SMap.getD c.branch (branchKey f r b) 0 == 0) || !s.creditOpen k n f r then s
  else
    let s := s.modCore k n fun c => { c with branch := bs.foldl (fun m b => SMap.mod m (branchKey f r b) 0 (· - 1)) c.branch }
    if 4 ≤ rtIn w r then s.modCore k n fun c => { c with credit := SMap.mod c.credit (4 * f + r) {} (·.take s.clock) }
    else s.sendCredit k n f (dirOf (rtIn w r))

/-- `m` credits reach branch `b` of route `r` of slot `f` at core (k, n), whose switchbox passes on what it can (R172). -/
def State.addCredit (s : State) (k n f r b m : Nat) : State := (s.modCore k n (·.addBranch f r b m)).passCredit k n f r

/-- A SOURCE's line takes a credit: 12 bits (R302). -/
def LacingRun.creditLine (r : LacingRun) (line : Nat) : LacingRun :=
  { r with credit := SMap.mod r.credit line 0 fun v => min 4095 (v + 1) }

/-- The Lacing descriptor at place `i` of cluster `k` changed by `f`. -/
def State.modLacing (s : State) (k i : Nat) (f : LacingRun → LacingRun) : State :=
  s.modCl k fun c => { c with lacing := { c.lacing with active := c.lacing.active.map fun p => if p.1 = i then (i, f p.2) else p } }

/-- A credit that a lane presents to core (k, n) on its outgoing link `d`: it goes to the SOURCE or to the route that drives the link in
the credit's phase; between clusters of different owners, and where nothing drives the link, it is lost (R170, R190, R302). -/
def State.creditArrives (s : State) (k n : Nat) (d : Dir) (x : LaneCredit) : State :=
  let foreign := match s.acrossCluster k n d with
    | some l => !s.sameOwner k l
    | none => false
  if foreign then s
  else
    let s := s.crosses k (s.acrossCluster k n d)
    match (s.cl k).sourceAt n (dirNum d) x.phase with
    | some (i, _, line) => s.modLacing k i (·.creditLine line)
    | none =>
      let w := (s.core k n).word x.fold
      match firstSome (fun r => rtValid w r && rtDrives w r (dirNum d) && rtHolds w r x.phase) (upto 4) with
      | some r => s.addCredit k n x.fold r (dirNum d) 1
      | none => s

/-- Room that the TAP at place `i` of cluster `k` gives back on a line (R301): `m` credits for the branch of the line's route there, or
owed straight up the line by a terminal tap. -/
def State.tapFrees (s : State) (k i line m φ : Nat) : State :=
  match SMap.get? (s.cl k).lacing.active i with
  | none => s
  | some r =>
    let w := r.bits
    let n := lcCoreOf w line
    match routeFor ((s.core k n).word (lcFold w)) (lcEdge w) φ with
    | some rt => s.addCredit k n (lcFold w) rt 5 m
    | none => s.modLacing k i fun r => { r with owed := SMap.mod r.owed line 0 (· + m) }

/-- The next credit that lanes present at a place and link, of a fold. -/
def nextCredit (xs : List LaneCredit) (dest : Nat) (d : Option Dir) (f : Nat) : Option LaneCredit :=
  xs.foldl (fun b x =>
    if x.dest = dest ∧ x.fold = f ∧ (d = none ∨ d = some x.dir) then
      match b with
      | none => some x
      | some y => if x.due < y.due then some x else some y
    else b) none

/-- Cycles until a credit phase: `ok` says of a phase whether it is one. -/
def creditWait (ok : Nat → Bool) (now : Nat) : Nat := (firstSome (fun i => ok ((now + i) % 16)) (upto 16)).getD 0

/-- A pending credit of share (`q`, `f`) of core (k, n) goes back, its fold being active and the fold's bubble round over: in the first
credit phase of its route after the cycle in which it became pending (R171, R195). -/
def State.returnShare (s : State) (k n q f : Nat) : State :=
  let x := s.core k n
  let w := x.word f
  let p := SMap.getD x.pendCredit (pairKey q f) {}
  match routeFeeding w q with
  | none => s
  | some r =>
    if p.count = 0 ∨ (s.cl k).activeFold ≠ f then s
    else
      let s := s.reachClock (max p.ready (s.cl k).bubbleEnd)
      let s := if 4 ≤ rtIn w r then s else s.advance (creditWait (rtCredits w r) s.now)
      (s.modCore k n fun x => { x with pendCredit := SMap.put x.pendCredit (pairKey q f) ⟨p.count - 1, s.clock + 1⟩ }).addCredit k n f r 4 1

/-- Credits held in core (k, n)'s switchbox for route `r` of slot `f`: one leaves in the next cycle in which it can (R172, R203, R206). -/
def State.returnHeld (s : State) (k n f r : Nat) : State :=
  let x := s.core k n
  let w := x.word f
  if 4 ≤ rtIn w r then (s.reachClock (SMap.getD x.credit (4 * f + r) {}).last).passCredit k n f r
  else
    let later := fun i => s.advance (i + creditWait (rtCredits w r) (s.now + i))
    let t := later 0
    (if t.creditOpen k n f r then t else later 1).passCredit k n f r

/-- A credit on its lane reaches core (k, n) (R170). -/
def State.returnLane (s : State) (k n : Nat) (d : Dir) (f : Nat) : State :=
  match nextCredit s.lanes (1024 * k + n) (some d) f with
  | none => s
  | some x =>
    let s := s.reachClock x.due
    ({ s with lanes := listErase s.lanes x }).creditArrives k n d x

/-- A credit on its lane reaches a seam line: the inbound channel that drives the line takes it (R439, R442). -/
def State.returnLine (s : State) (io line f : Nat) : State :=
  match nextCredit s.lanes (seamLine io line) none f with
  | none => s
  | some x =>
    let s := s.reachClock x.due
    let s := ({ s with lanes := listErase s.lanes x } : State).crosses (lineCluster io line) none
    match s.inboundAt io line f x.phase with
    | some (l, ch) => s.modChannel true l ch fun c => { c with credit := c.credit + 1 }
    | none => s

/-- A credit that a terminal TAP owes a line leaves in the next credit phase (R301). -/
def State.returnTap (s : State) (k i line : Nat) : State :=
  match SMap.get? (s.cl k).lacing.active i with
  | none => s
  | some r =>
    let w := r.bits
    let n := lcCoreOf w line
    let d := dirOf (lcEdge w)
    if SMap.getD r.owed line 0 = 0 then s
    else
      let later := fun j => s.advance (j + creditWait (fun p => lcHolds w ((creditPhase p + 1) % 16)) (s.now + j))
      let t := later 0
      let taken := match t.laneOf k n (lcFold w) d with
        | some x => t.laneTaken x
        | none => false
      let t := if taken then later 1 else t
      if t.heldBack k n d then s
      else (t.modLacing k i fun r => { r with owed := SMap.mod r.owed line 0 (· - 1) }).sendCredit k n (lcFold w) d

/-- A token presented to core (k, n) on its link `d` now (R166, R178, R190, R205, R301). -/
def State.present (s : State) (k n : Nat) (d : Dir) (tok : Token) (launched : Nat) : State :=
  let f := tok.fold.toNat
  let dn := dirNum d
  let from_ := s.acrossCluster k n d
  let foreign := match from_ with | some l => !s.sameOwner k l | none => false
  let border := match from_ with | some l => s.isBorder k l | none => true
  let s := if foreign then s else s.crosses k from_
  if foreign then s.unrouted k n f dn s.phase
  else if border && (s.cl k).isShut then s.lateToken k n 2 f 0 dn s.phase
  else
    let tap := (s.cl k).tapAt n dn f s.phase
    let φ := s.phase
    let (s, free) := s.tapToken k n dn tok
    let s := match free, tap with
      | true, some (i, _, line) => s.tapFrees k i line 1 φ
      | _, _ => s
    let w := (s.core k n).word f
    match (if cwValid w then routeFor w dn φ else none) with
    | some r => s.driveRoute k n r tok launched
    | none => if tap.any (fun t => lcTerminal t.2.1.bits) then s else s.unrouted k n f dn φ

/-- TOKEN_HOP (R166): the next token on link `d` is presented to the core's switchbox in its cycle. -/
def execTokenHop (c : CoreId) (d : Dir) (s : State) : Res :=
  .next (let k := c.k.val
         let n := coreNum c
         match nextFlight s.flights (1024 * k + n) d with
         | none => s
         | some x =>
           let s := s.reachClock x.due
           ({ s with flights := listErase s.flights x }).present k n d x.tok x.launched)

/-! ### Slack rows (R180 to R182) -/

/-- A token's tag as a byte (R75). -/
def tokenTag (t : Token) : Nat :=
  32 * t.fold.toNat + 16 * ofBool t.ctrl + 8 * ofBool t.endBit + 4 * ofBool t.poison + t.spare.toNat

/-- The token of a payload and a tag byte (R75). -/
def tokenOf (payload tag : Nat) : Token :=
  { payload := BitVec.ofNat 128 payload, fold := BitVec.ofNat 3 (tag / 32), ctrl := bitAt tag 4
    endBit := bitAt tag 3, poison := bitAt tag 2, spare := BitVec.ofNat 2 tag }

/-- Thirty tokens as a row: payloads from byte 0, tags from byte 480 (R181). -/
def slackRow (ts : List Token) : Row :=
  let data := (ts.zipIdx).foldl (fun n p => n + p.1.payload.toNat <<< (128 * p.2) + tokenTag p.1 <<< (3840 + 8 * p.2)) 0
  { data := BitVec.ofNat 4096 data }

/-- The tokens of a slack row. -/
def slackTokens (r : Row) : List Token :=
  (upto 30).map fun t =>
    let w := r.data.toNat
    tokenOf (field w (128 * t + 127) (128 * t)) (field w (3847 + 8 * t) (3840 + 8 * t))

/-- The path of fold `f` of core (k, n) changed. -/
def State.modPath (s : State) (k n f : Nat) (h : Slack → Slack) : State :=
  s.modCore k n fun x => { x with slack := SMap.mod x.slack f {} h }

/-- SLACK_ROW_WRITE (R180 step 2, R182): a full write latch asks for the write of a row, which makes 30 credits pending; once the write
has been granted, the latch is empty and the row in the ring. -/
def execSlackRowWrite (c : CoreId) (f : Fin 8) (s : State) : Res :=
  .next (let k := c.k.val
         let n := coreNum c
         let w := (s.core k n).word f.val
         let p := (s.core k n).path f.val
         let h := (s.cl k).handle (cwSlackHandle w)
         let row := h.baseRow + (p.head + p.used) % h.length
         if !cwSlackEn w then s
         else match p.writing with
           | some b =>
             let s := s.settleArb k
             if ((s.cl k).arb.movedAt 11 b).isNone then s
             else
               let s := (s.modCl k (·.setRow row (slackRow p.write))).modPath k n f.val fun p =>
                 { p with write := p.write.drop 30, used := p.used + 1, writing := none, next := max p.next s.clock }
               (s.count (pgClCtrl k) 49 1).active k
           | none =>
             if p.write.length < 30 || h.length ≤ p.used || (s.cl k).frozen then s
             else
               let s := s.askSlack k row true
               let s := s.modPath k n f.val fun p => { p with writing := some ((s.cl k).arb.ticket 11) }
               s.modCore k n (·.pend (cwSlackQ w) f.val 30 s.clock))

/-- SLACK_ROW_READ (R180 steps 3 and 4): an empty read latch asks for the ring's oldest row; once it has been read, its tokens are in the
latch and the row is free. -/
def execSlackRowRead (c : CoreId) (f : Fin 8) (s : State) : Res :=
  .next (let k := c.k.val
         let n := coreNum c
         let w := (s.core k n).word f.val
         let p := (s.core k n).path f.val
         let h := (s.cl k).handle (cwSlackHandle w)
         let row := h.baseRow + p.head % h.length
         if !cwSlackEn w then s
         else match p.reading with
           | some b =>
             let s := s.settleArb k
             match (s.cl k).arb.movedAt 11 b with
             | none => s
             | some t =>
               let s := s.reachClock (t + 4)
               let s := s.modPath k n f.val fun p =>
                 { p with read := slackTokens ((s.cl k).row k row), head := (p.head + 1) % h.length, used := p.used - 1, reading := none }
               ((s.modCore k n (·.refill (cwSlackQ w) f.val s.clock)).count (pgClCtrl k) 50 1).active k
           | none =>
             if !p.read.isEmpty || p.used = 0 || h.length = 0 || (s.cl k).frozen then s
             else
               let s := s.askSlack k row false
               s.modPath k n f.val fun p => { p with reading := some ((s.cl k).arb.ticket 11) })

end Sys2Proof.Machine
end

