-- ==== Sys2Proof/Machine/Mesh.lean ====
section
/-! DEFINITION. The packet mesh (R308 to R315): routes, buffers and grants, one flit at a time. -/
namespace Sys2Proof.Machine

/-! ### Routes (R308, R310, R331, R443) -/

/-- The entry of the module route table that serves `m` (R443). -/
def State.routeEntry (s : State) (m : BitVec 14) : Nat := (SMap.getD s.harness.routes m.toNat 0).toNat

/-- Whether a packet names another module (R444). -/
def State.leavesModule (s : State) (p : Packet) : Bool := p.dmod != s.moduleId

/-- The hub whose trunk the route table names. -/
def State.exitHub (s : State) (p : Packet) : Nat := field (s.routeEntry p.dmod) 29 27 / 3 % 2

/-- Where a packet goes within the grid: a router with its output, or a hub. -/
inductive Goal where
  | router (r out : Nat)
  | hub (d out : Nat)
deriving DecidableEq, Repr

/-- The place that a packet's destination names (R310, R316). -/
def State.goal (s : State) (p : Packet) : Goal :=
  if s.leavesModule p then .hub (s.exitHub p) 2
  else
    let e := p.dest
    match epKind e with
    | 0 => .router (epNumber e) 4
    | 1 => .router (40 * epDie e + gatewayOf p.addr.toNat) 5
    | 2 => .hub (epIoDie e) (if 21 ≤ epIoUnit e ∧ epIoUnit e ≤ 23 then 2 else 4)
    | _ => if 320 ≤ epNumber e then .hub (epNumber e % 2) 4 else .router (epNumber e) 4

/-- The number of a hub's link to row `y`, which R331 counts with the links of one compute die. -/
def hubLink (y : Nat) : Nat := 6 + y

/-- The output or input of R331 to which a port's number belongs. -/
def portNumber (n : Nat) : Nat := if n < 6 then n else if n < 11 then 0 else 1

/-- The output of cluster `k`'s router toward a larger `Y`, and toward a smaller one (R308). -/
def downOf (k : Nat) : Nat := if dieOf k < 4 then 2 else 0
def upOf (k : Nat) : Nat := if dieOf k < 4 then 0 else 2

/-- The output of router `r` for a packet (R310): `X` moves before `Y` moves; a packet between the hubs crosses in row TAG mod 10. -/
def State.outputOf (s : State) (r : Nat) (p : Packet) : Nat :=
  match s.goal p with
  | .hub d out =>
    if r = 320 + d then out
    else if 320 ≤ r then hubLink (p.tag.toNat % 10)
    else if d = 0 then 3 else 1
  | .router t out =>
    if 320 ≤ r then hubLink (gridY t)
    else if gridX t < gridX r then 3
    else if gridX r < gridX t then 1
    else if gridY t < gridY r then upOf r
    else if gridY r < gridY t then downOf r
    else out

/-- Where an output leads: the next router, its input, the cycles of the hop (through a hub 16 more), and whether the link crosses a seam (R308, R309).
`none` where the packet has reached its port. -/
def nextRouter (r out : Nat) : Option (Nat × Nat × Nat × Bool) :=
  if 320 ≤ r then
    if 6 ≤ out then some (clusterAt (if r = 320 then 0 else 31) (out - 6), if r = 320 then 3 else 1, 32, true) else none
  else
    let x := gridX r
    let y := gridY r
    if out = 1 then
      if x = 31 then some (321, hubLink y, 48, true)
      else some (clusterAt (x + 1) y, 3, if x % 8 = 7 then 24 else 4, x % 8 == 7)
    else if out = 3 then
      if x = 0 then some (320, hubLink y, 48, true)
      else some (clusterAt (x - 1) y, 1, if x % 8 = 0 then 24 else 4, x % 8 == 0)
    else if out = 0 ∨ out = 2 then
      let y' := if out = downOf r then y + 1 else y - 1
      let t := clusterAt x y'
      if dieOf t = dieOf r then some (t, 2 - out, 4, false) else some (t, 2, 24, true)
    else none

/-! ### Buffers (R311) -/

/-- Fabric cycles from a router to the endpoint at a port (R309); a hub's are in the way to it. -/
def exitLatency (r out : Nat) : Nat := if 320 ≤ r then 0 else if out = 5 then 16 else 1

/-- Whether the next buffer has room for a flit of the packet. -/
def State.hasCredit (s : State) (r out : Nat) (p : Packet) : Bool :=
  match nextRouter r out with
  | none => true
  | some (t, input, _, seam) => decide (flitsIn (s.router t).held input (pairOf p) < bufferSize (channelOf p) seam)

/-! ### Grants (R312) -/

/-- `COMBINE_EN` and `STITCH_HOLD` (R330). -/
def State.combineEn (s : State) (r : Nat) : Bool := bitAt (s.regOf (pgRouter r) 0x40) 8
def State.stitchHold (s : State) (r : Nat) : Nat := field (s.regOf (pgRouter r) 0x40) 7 0

/-- Whether a held packet stands at the front of its input's buffer for its pair; one out of the Stitch store stands in none. -/
def RouterState.isFront (x : RouterState) (h : HeldPacket) : Bool :=
  h.stored || firstSome (fun y => y.input == h.input && !y.stored && pairOf y.packet == pairOf h.packet) x.held == some h

/-- A packet that asks for an output, and the cycle from which it can be granted. -/
structure Asking where
  packet : Packet
  input : Nat
  from_ : Nat
  started : Bool
  stored : Option StitchHeld := none
  /-- It has left the Stitch store. -/
  unstored : Bool := false
deriving DecidableEq, Repr

/-- The packets that ask for output `out` of router `r`: fronts of buffers, and Stitch packets that are free to leave (R321). A
Stitch packet in a buffer goes to the store first. -/
def State.asking (s : State) (r out : Nat) : List Asking :=
  let x := s.router r
  let held := x.held.filterMap fun h =>
    match h.flits with
    | [] => none
    | t :: _ =>
      if x.isFront h && s.outputOf r h.packet == out && s.hasCredit r out h.packet && (channelOf h.packet != 2 || h.stored) then
        some { packet := h.packet, input := h.input, from_ := t, started := h.sent != 0, unstored := h.stored }
      else none
  let full := decide (16 ≤ x.store.length)
  let stored := (x.store.zipIdx.filter fun h => h.1.free || (full && h.2 == 0)).filterMap fun h =>
    if s.outputOf r h.1.packet == out && s.hasCredit r out h.1.packet then
      some { packet := h.1.packet, input := h.1.input, from_ := h.1.entered + (if h.1.free && !h.1.merged then s.stitchHold r else 0),
             started := false, stored := some h.1 }
    else none
  held ++ stored

/-- Asking packets that may be granted: while a packet of a pair has begun and not ended, it keeps the pair (R312). -/
def State.grantable (s : State) (r out : Nat) : List Asking :=
  let x := s.router r
  (s.asking r out).filter fun a =>
    a.started || !x.held.any fun h => h.sent != 0 && pairOf h.packet == pairOf a.packet && s.outputOf r h.packet == out

/-- The first of `cs` after `p` in cyclic order 0 to n - 1. -/
def nextInTurn (n p : Nat) (cs : List Nat) : Option Nat :=
  firstSome cs.contains ((upto n).map fun i => (p + 1 + i) % n)

/-- The winner among the packets of one pair: the one that holds it, else the next input in rotation. -/
def RouterState.pickInput (x : RouterState) (out pair : Nat) (as : List Asking) : Option Asking :=
  let ps := as.filter fun a => pairOf a.packet == pair
  match firstSome (·.started) ps with
  | some a => some a
  | none =>
    match nextInTurn 16 (SMap.getD x.inputTurn (8 * out + pair) 15) (ps.map (·.input)) with
    | some i => firstSome (fun a => a.input == i) ps
    | none => none

/-- The winner of a class among channels 0 to 2, in rotation. -/
def RouterState.pickChannel (x : RouterState) (out cls : Nat) (as : List Asking) : Option Asking :=
  let ps := as.filter fun a => channelOf a.packet != 3 && ofBool a.packet.prio == cls
  match nextInTurn 3 (SMap.getD x.channelTurn (2 * out + cls) 2) (ps.map fun a => channelOf a.packet) with
  | some c => x.pickInput out (2 * c + cls) ps
  | none => none

/-- The grant of output `out` in cycle `t` (R312). -/
def RouterState.pick (x : RouterState) (out t : Nat) (as : List Asking) : Option Asking :=
  let control := as.filter fun a => channelOf a.packet == 3
  let others := as.filter fun a => channelOf a.packet != 3
  let last := SMap.getD x.control out 0
  let barred := decide (last ≠ 0 ∧ t < last + 3) && !others.isEmpty
  let ctl := match x.pickInput out 7 control with | some a => some a | none => x.pickInput out 6 control
  match (if barred then none else ctl) with
  | some a => some a
  | none =>
    let lc := x.pickChannel out 1 others
    let be := x.pickChannel out 0 others
    if 15 ≤ SMap.getD x.lcRun out 0 then (match be with | some a => some a | none => lc)
    else match lc with | some a => some a | none => be

/-- The pointers of output `out` of router `r` after a grant in cycle `t`; `others`: a flit of another channel waited; `be`: a BE one
did. -/
def RouterState.turned (x : RouterState) (r out t : Nat) (a : Asking) (others be : Bool) : RouterState :=
  let ch := channelOf a.packet
  let x := { x with nextGrant := SMap.put x.nextGrant out (max (SMap.getD x.nextGrant out 0) (flitsPerCycle r out * t) + 1),
                    inputTurn := SMap.put x.inputTurn (8 * out + pairOf a.packet) a.input }
  if ch = 3 then (if others then { x with control := SMap.put x.control out (t + 1) } else x)
  else { x with channelTurn := SMap.put x.channelTurn (2 * out + ofBool a.packet.prio) ch,
                lcRun := SMap.put x.lcRun out (if a.packet.prio && be then SMap.getD x.lcRun out 0 + 1 else 0) }

/-- A flit leaves a held packet; the packet is gone with its tail. -/
def HeldPacket.sendFlit (h : HeldPacket) : Option HeldPacket :=
  if flitsOf h.packet ≤ h.sent + 1 then none else some { h with flits := h.flits.drop 1, sent := h.sent + 1 }

/-- Whether `h` is the held packet that asks. -/
def Asking.isOf (a : Asking) (h : HeldPacket) : Bool :=
  h.packet == a.packet && h.input == a.input && (h.sent != 0) == a.started && h.stored == a.unstored

/-- The held packets after the flit of `a` has left. -/
def sendFrom (a : Asking) : List HeldPacket → List HeldPacket
  | [] => []
  | h :: hs =>
    if a.isOf h then
      match h.sendFlit with
      | some h' => h' :: hs
      | none => hs
    else h :: sendFrom a hs

/-- A flit of a packet arrives at an input in cycle `t`. -/
def receiveAt (p : Packet) (input t : Nat) : List HeldPacket → List HeldPacket
  | [] => [{ packet := p, input := input, flits := [t], got := 1 }]
  | h :: hs =>
    if h.packet = p ∧ h.input = input ∧ !h.stored ∧ h.got < flitsOf p then { h with flits := h.flits ++ [t], got := h.got + 1 } :: hs
    else h :: receiveAt p input t hs

/-- A Stitch packet that leaves the store holds all its flits. -/
def State.unstore (s : State) (r : Nat) (a : Asking) : State × Asking :=
  match a.stored with
  | none => (s, a)
  | some h =>
    let n := flitsOf a.packet
    let s := s.modRouter r fun x =>
      { x with store := listErase x.store h,
               held := x.held ++ [{ packet := a.packet, input := a.input, stored := true, got := n,
                                    flits := List.replicate n s.clock }] }
    (if h.merged || !h.free then s else s.count (pgRouter r) 50 1, { a with stored := none, unstored := true })

/-- The flit of `a` crosses output `out` now. -/
def State.sendFlit (s : State) (r out : Nat) (a : Asking) : State :=
  let p := a.packet
  let sent := (firstSome a.isOf (s.router r).held).elim 0 (·.sent)
  let s := (s.modRouter r fun x => { x with held := sendFrom a x.held }).fillPort r a.input
  match nextRouter r out with
  | some (t, input, latency, _) => s.modRouter t fun x => { x with held := receiveAt p input (s.clock + latency) x.held }
  | none =>
    if flitsOf p ≤ sent + 1 then
      { s with mesh := { s.mesh with delivered := s.mesh.delivered ++ [⟨p, s.clock + exitLatency r out⟩] } }
    else s

/-- A header with an uncorrectable error at an input of router `r` (R315): fatal; the packet is lost. -/
def State.headerError (s : State) (r : Nat) (h : HeldPacket) : State :=
  ((s.modRouter r fun x => { x with held := listErase x.held h }).fillPort r h.input).fatal (pgRouter r) 0x61 (portNumber h.input)

/-- PACKET_HOP (R310, R312): in the first cycle in which it can, output `out` of the router grants one flit. -/
def execPacketHop (r : Fin 322) (out : Fin 16) (s : State) : Res :=
  .next (let r := r.val
         let out := out.val
         match firstSome (fun h => h.packet.badHeader) (s.router r).held with
         | some h => s.headerError r h
         | none =>
           match listMin? ((s.grantable r out).map (·.from_)) with
           | none => s
           | some first =>
             let s := s.reachClock (max first (SMap.getD (s.router r).nextGrant out 0 / flitsPerCycle r out))
             let as := (s.grantable r out).filter fun a => decide (a.from_ ≤ s.clock)
             match (s.router r).pick out s.clock as with
             | none => s
             | some a =>
               let others := as.any fun b => channelOf b.packet != 3
               let be := as.any fun b => channelOf b.packet != 3 && !b.packet.prio
               let wait := if a.started then 0 else s.clock - a.from_
               let ch := channelOf a.packet
               let c := 4 * portNumber out + ch
             let s := (s.count (pgRouter r) c 1).count (pgRouter r) (24 + c) wait
               let (s, b) := s.unstore r a
               let s := s.modRouter r fun x => x.turned r out s.clock a others be
               s.sendFlit r out b)

end Sys2Proof.Machine
end

