-- ==== Sys2Proof/Machine/Mtime.lean ====
section
/-! DEFINITION. Machine time (R54 to R66, R72, R73): the timecode, the synchronisation states, and their commands. The load of
the counter, which executes skipped calendar entries, stands in TimeLoad. -/
namespace Sys2Proof.Machine

/-- CRC-8 with polynomial x^8 + x^2 + x + 1 over the `n` bits of `w`, most significant first, from `crc` (R57). -/
def crc8 (w : Nat) : (n crc : Nat) → Nat
  | 0, crc => crc
  | n + 1, crc =>
    let top := bitAt crc 7 != bitAt w n
    let sh := (crc * 2) % 256
    crc8 w n (if top then sh ^^^ 0x07 else sh)

/-- R58: whether a frame is valid. -/
def frameValid (f : Nat) : Bool :=
  field f 71 64 == 0x5C && crc8 (f >>> 8) 64 0 == f % 256 && field f 63 16 % 65536 == 0

/-- The machine-time block changed by `f`. -/
def State.modMt (s : State) (f : MTime → MTime) : State := { s with mt := f s.mt }

/-- Acquisition takes a valid frame: the second of two for consecutive epoch beats sets the load (R65 step 2). -/
def MTime.acquire (m : MTime) (b : BitVec 48) (at_ : Nat) : MTime :=
  if !m.acquiring then m
  else match m.firstFrame with
    | some a => if b = a + 65536#48 then { m with firstFrame := some b, loadDue := some b, loadAt := at_ }
                else { m with firstFrame := some b, loadDue := none }
    | none => { m with firstFrame := some b }

/-- Fabric cycles from the end of a frame's last bit to the beat that it names: 56 MTREF periods (R57). -/
def frameLead : Nat := 56 * 16

/-- MTSYNC_FRAME (R57, R58): the frame's last bit has been received. -/
def execMtsyncFrame (frame : BitVec 72) (s : State) : Res :=
  .next (let f := frame.toNat
         if frameValid f then
           let b := BitVec.ofNat 48 (field f 63 16)
           s.modMt fun m => { (m.acquire b (s.clock + frameLead)) with heard := true, frame := some b, lastBeat := b, holdover := bitAt f 15 }
         else (s.pulse pgMtime 5).count pgMtime 2 1)

/-- The next epoch boundary that the counter reaches by counting. -/
def MTime.nextEpoch (m : MTime) : BitVec 48 := BitVec.ofNat 48 ((m.epochDone.toNat / 65536 + 1) * 65536)

/-- The check of R59 of a frame naming `b` at the boundary of beat `now`. -/
def State.checkFrame (s : State) (b now : BitVec 48) : State :=
  if b = now then (s.count pgMtime 1 1).modMt fun m => { m with mismatch := none }
  else
    let off := b - now
    let s := (s.pulse pgMtime 4).count pgMtime 3 1
    if s.mt.mismatch = some off then
      let s := s.modMt fun m => { m with unsync := true, stopDue := true, mismatch := none }
      s.modPage pgMtime fun g => { g with latch := g.latch ||| eventBit 7 }
    else s.modMt fun m => { m with mismatch := some off }

/-- EPOCH_CHECK (R58, R59): frame-missing, or the comparison in state SYNCED with CHECK_EN. -/
def execEpochCheck (s : State) : Res :=
  .next (let e := s.mt.nextEpoch
         let s := s.reachBeat e
         let s := if s.mt.heard then s else s.pulse pgMtime 6
         let s' := match s.mt.frame with
           | none => s
           | some b =>
             if s.mt.mode == TimeMode.synced && !s.mt.unsync && bitAt (s.regOf pgMtime 0x40) 0 then s.checkFrame b e else s
         s'.modMt fun m => { m with heard := false, frame := none, epochDone := e })

/-- The steps of R64 at the round after the loss is detected: the selector moves, ISLAND and UNSYNC hold. -/
def State.loseReference (s : State) : State :=
  let s := s.reachBoundary 16
  let s := s.modMt fun m =>
    { m with mode := .island, unsync := true, localRef := true, present := false, stopDue := true,
             acquiring := false, firstFrame := none, loadDue := none }
  let s := s.modPage pgMtime fun g => { g with latch := g.latch ||| (eventBit 2 ||| eventBit 7) }
  (s.pulse pgMtime 1).count pgMtime 4 1

/-- MTREF_LOSS (R64 steps 1 and 2): whatever the state, MTREF that is present is lost. -/
def execMtrefLoss (s : State) : Res := .next (if s.mt.present then s.loseReference else s)

/-- Whether LOCAL_FORCE treats MTREF as lost (R72). -/
def State.localForced (s : State) : Bool := bitAt (s.regOf pgMtime 0x40) 1

/-- MTREF is present again (R72). -/
def State.mtrefBack (s : State) : State := if s.mt.present then s else s.modMt fun m => { m with present := true, since := s.clock }

/-- MTREF_RETURN (R65 step 1, R72): MTREF is present again. Once it has been so for 65,536 MTREF periods, the module enters RETURNING,
and at the next beat boundary the selector moves to MTREF and acquisition starts. -/
def execMtrefReturn (settled : Bool) (s : State) : Res :=
  .next (if s.localForced || !s.mt.localRef then s
         else
           let s := s.mtrefBack
           if !settled then s
           else
             let s := s.reachClock (s.mt.since + 65536 * 16)
             let s := s.modMt fun m => { m with mode := if m.mode = .island then .returning else m.mode }
             let s := s.reachBoundary 4096
             s.modMt fun m => { m with localRef := false, acquiring := true, firstFrame := none, loadDue := none })

/-- REACQUIRE (R66): acquisition from SYNCED, UNSYNC or ISLAND with MTREF present. -/
def execReacquire (_req : Req) (s : State) : Res :=
  .next (if (s.page pgMtime).inReset || !s.mt.present || (s.mt.mode != .synced && s.mt.mode != .island) then s
         else s.modMt fun m => { m with acquiring := true, firstFrame := none, loadDue := none })

/-- LOCAL_FORCE (R72, R474, R475): a cw field; custody action 6. -/
def execLocalForce (req : Req) (on : Bool) (s : State) : Res :=
  .next (let old := s.regOf pgMtime 0x40
         if (s.page pgMtime).inReset || bitAt old 1 == on then s
         else if !s.custody.present then s.refuseCw req.val pgMtime 0x40
         else
           let s := (s.setReg pgMtime 0x40 (setField old 1 1 (ofBool on))).logCustody 6 req.val
           if on && s.mt.present then s.loseReference else s)

end Sys2Proof.Machine
end

