-- ==== Sys2Proof/Machine/Links.lean ====
section
/-! DEFINITION. Harness links (spec/17): frames and replay, circuits across modules, packets across modules, training. What a
link sends leaves as `Output.frame` in the step that makes it due; how frames follow one another in time is left out (log 2). -/
namespace Sys2Proof.Machine

/-! ### Links and their pages (R431, R451) -/

/-- The trunk of a link, its number within the trunk, and its I/O die. -/
def trunkOf (l : Nat) : Nat := l / 8
def linkNo (l : Nat) : Nat := l % 8
def linkDie (l : Nat) : Nat := l / 24

/-- Link `l`. -/
def State.link (s : State) (l : Nat) : Link := SMap.getD s.harness.links l {}

/-- Link `l` changed by `f`. -/
def State.modLink (s : State) (l : Nat) (f : Link → Link) : State :=
  { s with harness := { s.harness with links := SMap.mod s.harness.links l {} f } }

/-- A counter of a link in its TRUNK page (R452). -/
def State.countLink (s : State) (l c n : Nat) : State :=
  if n = 0 then s else s.count (pgTrunk (trunkOf l)) (16 * linkNo l + c) n

/-- An event of a link's TRUNK page. -/
def State.pulseLink (s : State) (l e : Nat) : State := s.pulse (pgTrunk (trunkOf l)) e

/-- LINK_EN of a link (R448). -/
def State.linkEnabled (s : State) (l : Nat) : Bool := bitAt (s.regOf (pgTrunk (trunkOf l)) 0x40) (linkNo l)

/-- Bytes sent or received over a link, charged to a context (R403, R442). -/
def State.chargeLink (s : State) (l ctx : Nat) (received : Bool) (bytes : Nat) : State :=
  s.charge (pgTrunk (trunkOf l)) ctx (64 + 2 * l + ofBool received) bytes

/-! ### Flits (R315, R316) -/

/-- LEN of a header; of an odd number of data words it is that number (log 27). -/
def lenOf (p : Packet) : Nat := if p.len = 0 ∧ p.data.length % 2 = 1 then p.data.length % 128 else p.len.toNat

/-- The header flit. -/
def headerBits (p : Packet) : Nat :=
  p.opcode.toNat + channelOf p <<< 8 + ofBool p.prio <<< 10 + ofBool p.mask.isSome <<< 11 + dataFlits p <<< 12
    + p.ctx.toNat <<< 18 + p.dest.toNat <<< 24 + p.src.toNat <<< 40 + p.tag.toNat <<< 56 + p.dmod.toNat <<< 66
    + p.smod.toNat <<< 80 + p.hint.toNat <<< 94 + p.addr.toNat <<< 96 + p.wordPoison.toNat <<< 144 + lenOf p <<< 208
    + p.status.toNat <<< 215 + p.rtag.toNat <<< 223 + p.count.toNat <<< 239 + p.sop.toNat <<< 255 + p.stype.toNat <<< 257
    + p.rsvRows.toNat <<< 259 + p.placeRow.toNat <<< 273

/-- Data words as flits of two. -/
def dataFlitList : List W256 → List (BitVec 512)
  | [] => []
  | [a] => [BitVec.ofNat 512 a.toNat]
  | a :: b :: ws => BitVec.ofNat 512 (a.toNat + b.toNat <<< 256) :: dataFlitList ws

/-- The flits of a packet in order. -/
def packetFlits (p : Packet) : List (BitVec 512) :=
  BitVec.ofNat 512 (headerBits p) :: p.mask.toList ++ dataFlitList p.data

/-- Flits that a header announces, itself included. -/
def flitsNamed (h : Nat) : Nat := 1 + field h 11 11 + field h 17 12

/-- The words of data flits. -/
def flitWords (fs : List (BitVec 512)) : List W256 :=
  fs.flatMap fun f => [BitVec.ofNat 256 f.toNat, BitVec.ofNat 256 (f.toNat >>> 256)]

/-- The packet of its flits. -/
def packetOf (fs : List (BitVec 512)) : Packet :=
  let h := (fs.headD 0).toNat
  let f := fun (hi lo : Nat) => field h hi lo
  let masked := bitAt h 11
  let data := flitWords (fs.drop (if masked then 2 else 1))
  let len := f 214 208
  { opcode := BitVec.ofNat 8 (f 7 0), prio := bitAt h 10, ctx := BitVec.ofNat 6 (f 23 18), dest := BitVec.ofNat 16 (f 39 24),
    src := BitVec.ofNat 16 (f 55 40), tag := BitVec.ofNat 10 (f 65 56), dmod := BitVec.ofNat 14 (f 79 66),
    smod := BitVec.ofNat 14 (f 93 80), hint := BitVec.ofNat 2 (f 95 94), addr := BitVec.ofNat 48 (f 143 96),
    len := BitVec.ofNat 7 len, status := BitVec.ofNat 8 (f 222 215), rtag := BitVec.ofNat 16 (f 238 223),
    count := BitVec.ofNat 16 (f 254 239), sop := BitVec.ofNat 2 (f 256 255), stype := BitVec.ofNat 2 (f 258 257),
    rsvRows := BitVec.ofNat 14 (f 272 259), placeRow := BitVec.ofNat 13 (f 285 273), wordPoison := BitVec.ofNat 64 (f 207 144),
    mask := if masked then (fs.drop 1).head? else none,
    data := if len % 2 = 1 ∧ (len + 1) / 2 = f 17 12 then data.take len else data }

/-! ### Frames (R432, R433) -/

/-- One byte into the CRC of IEEE 802.3, least significant bit first (log 22). -/
def crc32Bits : (n c : Nat) → Nat
  | 0, c => c
  | n + 1, c => crc32Bits n (if c % 2 = 1 then (c / 2) ^^^ 0xEDB88320 else c / 2)

/-- CRC-32 of bytes, initial value 0xFFFF_FFFF, complemented at the end. -/
def crc32 (bs : List Byte) : Nat := (bs.foldl (fun c b => crc32Bits 8 (c ^^^ b.toNat)) 0xFFFFFFFF) ^^^ 0xFFFFFFFF

/-- The CRC of bytes 0 to 395 of a frame. -/
def frameCrc (w : Nat) : Nat := crc32 (toBytes 396 w)

/-- A frame with its ACK and NAK and its CRC. -/
def stampFrame (w ack : Nat) (nak : Bool) : BitVec 3200 :=
  let w := w + ack <<< 64 + ofBool nak <<< 63
  BitVec.ofNat 3200 (w + frameCrc w <<< 3168)

/-- A slot of a frame: its KIND, SET and PAIR code, its bits, and the context of its flit, or those of its tokens. -/
structure FrameSlot where
  code : Nat
  bits : Nat
  ctxs : List Nat
deriving DecidableEq, Repr

/-- A data frame without ACK, NAK and CRC: sequence number, slots and credit returns. -/
def dataFrame (seq : Nat) (slots : List FrameSlot) (cr0 cr1 : Nat) : BitVec 3200 :=
  let head := 0x01 <<< 88 + seq <<< 76 + cr0 <<< 18 + cr1 <<< 9
  BitVec.ofNat 3200 (slots.zipIdx.foldl (fun n p => n + p.1.code <<< (27 + 6 * p.2) + p.1.bits <<< (96 + 512 * p.2)) head)

/-! ### Filling a frame (R433, R436, R439) -/

/-- Key of a pair and set. -/
def pairSet (pair set : Nat) : Nat := pair + 8 * set

/-- Slots of a receive buffer (R436). -/
def linkBuffer (set : Nat) : Nat := if set = 0 then 512 else 64

/-- The sender's credits when the link first comes up. -/
def firstCredits : SMap Nat := (upto 16).map fun i => (i, linkBuffer (i / 8))

/-- Up to two credit words of channels whose link credits are due; `ok` says which may pass (R439, R442). -/
def Link.creditWords (ok : Channel → Bool) (x : Link) : Nat × Link :=
  let cs := (x.inbound.filter fun c => c.2.mode == .opened && decide (0 < c.2.owed) && ok c.2).take 2
  let n := cs.zipIdx.foldl (fun n c => n + (2 ^ 15 + c.1.1 <<< 10 + min 1023 c.1.2.owed) <<< (16 * c.2)) 0
  (n, { x with inbound := cs.foldl (fun m c => SMap.mod m c.1 {} fun y => { y with owed := y.owed - min 1023 y.owed }) x.inbound })

/-- Whether an item is the first of its pair and set. -/
def Link.isHead (x : Link) (i : LinkItem) : Bool := firstSome (fun y => y.pair == i.pair && y.set == i.set) x.items == some i

/-- The heads whose next slot may be sent: a packet that has begun, or whose flits its credits cover. -/
def Link.ready (x : Link) : List LinkItem :=
  x.items.filter fun i =>
    x.isHead i && (i.started || decide (i.words.length ≤ SMap.getD x.sendCredit (pairSet i.pair i.set) 0))

/-- A head that waits for credit. -/
def Link.blocked (x : Link) : Bool := x.items.any fun i => x.isHead i && !x.ready.contains i

/-- The head of a class (0 LC, 1 BE) in the rotation of R312. -/
def Link.pickClass (x : Link) (cls : Nat) : Option LinkItem :=
  let is := x.ready.filter fun i => i.pair % 2 == cls
  match nextInTurn 3 (SMap.getD x.turn cls 2) (is.map (·.pair / 2)) with
  | some c => firstSome (fun i => i.pair / 2 == c) is
  | none => none

/-- The packet whose slot goes next, in the order of R312 without its control step. -/
def Link.pick (x : Link) : Option LinkItem :=
  let lc := x.pickClass 0
  let be := x.pickClass 1
  if 15 ≤ x.lcRun then (match be with | some i => some i | none => lc) else (match lc with | some i => some i | none => be)

/-- The items after the first flit of `i` has gone. -/
def sendItem (i : LinkItem) : List LinkItem → List LinkItem
  | [] => []
  | y :: ys =>
    if y = i then
      (match i.words with | _ :: b :: ws => { i with started := true, words := b :: ws } :: ys | _ => ys)
    else y :: sendItem i ys

/-- The bits of a circuit slot without its credit words (R433, R440). -/
def circuitSlot (ts : List (Nat × ChannelToken)) : Nat :=
  let stamp := match ts with
    | t :: _ => (t.2.cycle / 16 % 65536) <<< 456
    | [] => 0
  ts.zipIdx.foldl (fun n t => n + t.1.2.tok.payload.toNat <<< (128 * t.2) + tokenTag t.1.2.tok <<< (384 + 8 * t.2)
    + (2 ^ 15 + t.1.1 <<< 10 + (t.1.2.cycle % 16) <<< 6) <<< (408 + 16 * t.2)) stamp

/-- A token joins the last waiting slot of its round that has a place, or makes a slot of its own (R440). -/
def joinSlot (ch : Nat) (t : ChannelToken) : List (List (Nat × ChannelToken)) → List (List (Nat × ChannelToken))
  | [] => [[(ch, t)]]
  | [ts] => if ts.length < 3 ∧ ts.all (fun x => x.2.cycle / 16 = t.cycle / 16) then [ts ++ [(ch, t)]] else [ts, [(ch, t)]]
  | ts :: rest => ts :: joinSlot ch t rest

/-- The waiting slots without a channel's tokens. -/
def clearSlots (ch : Nat) (ss : List (List (Nat × ChannelToken))) : List (List (Nat × ChannelToken)) :=
  (ss.map fun ts => ts.filter (·.1 != ch)).filter (!·.isEmpty)

/-- A channel's tokens in the waiting slots. -/
def inSlots (ch : Nat) (ss : List (List (Nat × ChannelToken))) : Nat :=
  ss.foldl (fun n ts => n + (ts.filter (·.1 == ch)).length) 0

/-- The next slot of a frame: circuit slots and credit words first, then packets; `none` leaves the slot idle. -/
def Link.nextSlot (ok : Channel → Bool) (x : Link) : Option (FrameSlot × Link) :=
  match x.slots with
  | ts :: rest =>
    let (cw, x') := ({ x with slots := rest }).creditWords ok
    some (⟨0x10, circuitSlot ts + cw <<< 472, ts.map fun t => (SMap.getD x.outbound t.1 {}).ctx⟩, x')
  | [] =>
    let (cw, x') := x.creditWords ok
    if cw ≠ 0 then some (⟨0x10, cw <<< 472, []⟩, x')
    else match x.pick with
      | none => none
      | some i =>
        let key := pairSet i.pair i.set
        let be := (x.ready.any fun y => y.pair % 2 == 1)
        some (⟨(if i.pair / 2 = 2 then 0x30 else 0x20) + 8 * i.set + i.pair, (i.words.headD 0).toNat, [i.ctx]⟩,
          { x with items := sendItem i x.items
                   sendCredit := SMap.mod x.sendCredit key 0 (· - 1)
                   turn := SMap.put x.turn (i.pair % 2) (i.pair / 2)
                   lcRun := if i.pair % 2 = 0 && be then x.lcRun + 1 else 0 })

/-- The slots of a frame. -/
def Link.fill (ok : Channel → Bool) : (n : Nat) → Link → List FrameSlot × Link
  | 0, x => ([], x)
  | n + 1, x => match x.nextSlot ok with
    | none => ([], x)
    | some (f, x) => let (fs, x) := Link.fill ok n x; (f :: fs, x)

/-- Up to two credit returns, and the link without them (R433). -/
def Link.takeReturns (x : Link) : List Nat × Link :=
  let rs := (x.returns.filter fun r => decide (0 < r.2)).take 2
  (rs.map fun r => (r.1 % 8) <<< 6 + (r.1 / 8) <<< 5 + min 31 r.2,
   { x with returns := rs.foldl (fun m r => SMap.mod m r.1 0 (· - min 31 r.2)) x.returns })

/-- The next data frame, if there is anything to send: its slots, the frame, the link. -/
def Link.nextFrame (ok : Channel → Bool) (x : Link) : Option (List FrameSlot × BitVec 3200 × Link) :=
  if x.mode ≠ .up ∨ 256 ≤ x.replay.length then none
  else
    let (fs, y) := x.fill ok 6
    let (rs, y) := y.takeReturns
    if fs.isEmpty && rs.isEmpty then none
    else
      let f := dataFrame x.sendSeq fs (rs.getD 0 0) (rs.getD 1 0)
      some (fs, f, { y with sendSeq := (x.sendSeq + 1) % 4096, replay := x.replay ++ [{ seq := x.sendSeq, frame := f }] })

/-- ACK as the link sends it: the number before the one it expects. -/
def Link.ack (x : Link) : Nat := (x.recvSeq + 4095) % 4096

/-- A slot sent is counted and charged (R442, R452). -/
def State.slotSent (s : State) (l : Nat) (f : FrameSlot) : State :=
  if f.code / 16 = 1 then f.ctxs.foldl (fun s x => (s.countLink l 7 1).chargeLink l x false 16) s
  else f.ctxs.foldl (fun s x => s.chargeLink l x false 64) (s.countLink l (if f.code / 16 = 3 then 11 else 10) 1)

/-- The wait of a packet head for credit begins or ends (R452, counter 14). -/
def State.settleHead (s : State) (l : Nat) : State :=
  let x := s.link l
  match x.headWait with
  | none => if x.blocked then s.modLink l fun x => { x with headWait := some s.clock } else s
  | some t => if x.blocked then s else (s.countLink l 14 (s.clock - t)).modLink l fun x => { x with headWait := none }

/-- Frames that are due leave the link. `fuel` bounds their number. -/
def State.pumpFrames : (fuel : Nat) → State → (l : Nat) → State
  | 0, s, _ => s
  | fuel + 1, s, l =>
    match (s.link l).nextFrame (s.ownsLine (linkDie l)) with
    | none => s
    | some (fs, f, y) =>
      let y := if (s.link l).replay.isEmpty then { y with ackAt := s.clock } else y
      let s := (s.modLink l fun _ => y).emit (.frame l (stampFrame f.toNat y.ack y.nak))
      State.pumpFrames fuel (forEach fs (s.countLink l 0 1) fun s f => s.slotSent l f) l

/-- Everything that link `l` can send is sent (R434, R436). -/
def State.pumpLink (s : State) (l : Nat) : State := (State.pumpFrames 4096 s l).settleHead l

/-- An idle frame with the link's ACK and NAK (R434; log 23). -/
def State.sendIdle (s : State) (l : Nat) : State :=
  let x := s.link l
  if x.mode = .up then s.emit (.frame l (stampFrame 0 x.ack x.nak)) else s

/-! ### Stops, failure and retraining (R435, R441, R447, R448) -/

/-- The open channels of a direction stop: how many. -/
def stopAll (m : SMap Channel) : Nat × SMap Channel :=
  ((m.filter fun c => c.2.mode == .opened).length,
   SMap.mapAll m fun c => if c.mode = .opened then { c with mode := .stopped } else c)

/-- Every channel of link `l` becomes STOPPED; each stop raises event 4 (R441). -/
def State.stopChannels (s : State) (l : Nat) : State :=
  let x := s.link l
  let (n, out) := stopAll x.outbound
  let (m, inb) := stopAll x.inbound
  let s := s.modLink l fun x => { x with outbound := out, inbound := inb }
  if n + m = 0 then s else s.pulseLink l 4

/-- The link goes down for good: FAILED, or OFF. Replay contents are lost and counted (R435); what was waiting is lost with
them, and the next training is a first one (log 24). -/
def State.failLink (s : State) (l : Nat) (mode : LinkMode) (reason : Nat) : State :=
  let x := s.link l
  if x.mode = .failed ∨ x.mode = .off then s.modLink l fun x => { x with mode := mode, fail := reason }
  else
    let s := (s.report (pgTrunk (trunkOf l)) 0 0x65 0).countLink l 15 x.replay.length
    let s := (s.stopChannels l).pulseLink l 2
    s.modLink l fun x =>
      { x with mode := mode, fail := reason, lanes := 0, wasUp := false, sendSeq := 0, recvSeq := 0, nak := false, replay := [],
               sendCredit := [], returns := [], items := [], slots := [], assembling := [], turn := [], lcRun := 0,
               headWait := none, peerNak := false }

/-- An UP link starts a retrain (R435, R441). -/
def State.startRetrain (s : State) (l : Nat) : State :=
  if (s.link l).mode ≠ .up then s
  else (((s.countLink l 4 1).stopChannels l).pulseLink l 2).modLink l fun x => { x with mode := .retraining, trainAt := s.mgmtClock }

/-- Training starts on a link that is OFF or FAILED and enabled (R448, R449). -/
def State.startTraining (s : State) (l : Nat) : State :=
  s.modLink l fun x => { x with mode := .training, fail := 0, trainAt := s.mgmtClock }

/-- ISLAND_CIRCUIT_STOP (R64 step 3, R59, R441): at the beat boundary every channel of the module stops. -/
def execIslandCircuitStop (s : State) : Res :=
  .next (if !s.mt.stopDue then s
         else
           let s := (s.reachBoundary 4096).modMt fun m => { m with stopDue := false }
           (upto 48).foldl (fun s l => s.stopChannels l) s)

/-- Whether the cause of a retrain holds (R435). -/
def State.retrainDue (s : State) (l : Nat) (c : RetrainCause) : Bool :=
  let x := s.link l
  match c with
  | .replayed8 => x.replay.any fun f => decide (8 ≤ f.resent)
  | .ackTimeout => !x.replay.isEmpty
  | .lockLoss | .peerTraining => true

/-- RETRAIN (R435): an acknowledgement times out 4,096 rounds after the last one. -/
def execRetrain (l : Fin 48) (cause : RetrainCause) (s : State) : Res :=
  .next (if s.retrainDue l.val cause then
           (if cause = .ackTimeout then s.reachClock ((s.link l.val).ackAt + 65536) else s).startRetrain l.val
         else s)

/-- A lane is retired: its bit, and the spare map's entry (R447). -/
def State.retireLane (s : State) (l lane : Nat) : State :=
  if bitAt (s.link l).retired.toNat lane then s
  else (s.modLink l fun x => { x with retired := x.retired ||| BitVec.ofNat 4 (2 ^ lane) }).addSpare 6 (laneLoc l lane)

/-- A lane fails: a corrected error, and a retirement (R447, R484). -/
def State.loseLane (s : State) (l lane : Nat) : State :=
  if bitAt (s.link l).retired.toNat lane then s else (s.report (pgTrunk (trunkOf l)) 0 0x65 0).retireLane l lane

/-- LANE_FAIL (R447, R484): the lane fails, and the link retrains. -/
def execLaneFail (l : Fin 48) (lane : Fin 4) (s : State) : Res :=
  .next (if (s.link l.val).mode = .off ∨ bitAt (s.link l.val).retired.toNat lane.val then s
         else (s.loseLane l.val lane.val).startRetrain l.val)

/-- LINK_EN bit of a link written. -/
def State.setLinkEn (s : State) (l : Nat) (on : Bool) : State :=
  let n := pgTrunk (trunkOf l)
  s.setReg n 0x40 (setField (s.regOf n 0x40) (linkNo l) (linkNo l) (ofBool on))

/-- LINK_ENABLE (R448): the bit is written to 1. -/
def execLinkEnable (req : Req) (l : Fin 48) (s : State) : Res :=
  .next (if !s.pageOpen req (pgTrunk (trunkOf l.val)) || s.linkEnabled l.val then s
         else
           let s := s.setLinkEn l.val true
           if (s.link l.val).laneTest.any fun t => bitAt t.2.toNat 31 then s else s.startTraining l.val)

/-- LINK_DISABLE (R448): the bit is written to 0; the link is OFF at once. -/
def execLinkDisable (req : Req) (l : Fin 48) (s : State) : Res :=
  .next (if !s.pageOpen req (pgTrunk (trunkOf l.val)) || !s.linkEnabled l.val then s
         else (s.setLinkEn l.val false).failLink l.val .off 0)

/-! ### Training (R446, R449, R450) -/

/-- The active set of two lists of good lanes (R446 step 2); 0 where neither pair is good. -/
def laneSet (good : Nat) : Nat :=
  if good % 16 = 15 then 15 else if good % 4 = 3 then 3 else if field good 3 2 = 3 then 12 else 0

/-- `L_h` of a round trip (R446 step 4). -/
def latencyRounds (rttMax : Nat) : Nat := ((3 * rttMax + 1) / 2 + 64 + 15) / 16

/-- The lanes that both ends may use. -/
def goodLanes (x : Link) (i : TrainInfo) : Nat :=
  (i.locked &&& i.peerLocked &&& ~~~(x.retired ||| i.peerRetired)).toNat

/-- Why a training fails: the reason of LNK_STATE; `none` where it succeeds (R446). -/
def trainFault (own : BitVec 14) (x : Link) (i : TrainInfo) : Option Nat :=
  if laneSet (goodLanes x i) = 0 then some 3
  else if i.peerModule = own then some 2
  else if 2048 < i.rttMax then some 1 else none

/-- A management frame (R446), without ACK, NAK and CRC. -/
def State.managementFrame (s : State) (l kind lanes hold rtt stamp : Nat) : Nat :=
  0x02 <<< 88 + (kind + s.moduleId.toNat <<< 16 + (trunkOf l + linkNo l <<< 3) <<< 32 + lanes <<< 40 + stamp <<< 48 + hold <<< 112
    + rtt <<< 144) <<< 96

/-- A management frame leaves the link. -/
def State.sendManagement (s : State) (l kind lanes hold rtt stamp : Nat) : State :=
  s.emit (.frame l (stampFrame (s.managementFrame l kind lanes hold rtt stamp) (s.link l).ack (s.link l).nak))

/-- What this end sends in the steps that a training reaches (R446), each frame once for every exchange: identity where a pair is
good, 16 echo requests and RTTown where the peer is another module. -/
def State.sendTraining (s : State) (l : Nat) (i : TrainInfo) (fault : Option Nat) : State :=
  if fault = some 3 then s
  else
    let s := s.sendManagement l 1 (i.locked.toNat + (s.link l).retired.toNat <<< 4) 0 0 0
    if fault = some 2 then s
    else ((upto 16).foldl (fun s _ => s.sendManagement l 2 0 0 0 s.now) s).sendManagement l 4 0 0 i.rttOwn 0

/-- The peer that the identity step names is recorded; a peer other than the last recorded raises event 7 (R449, R451). -/
def State.recordPeer (s : State) (l : Nat) (i : TrainInfo) : State :=
  let peer := (i.peerModule, i.peerTrunk, i.peerLink)
  let changed := match (s.link l).peer with | some p => p != peer | none => false
  let s := s.modLink l fun x => { x with peer := some peer }
  if changed then s.pulseLink l 7 else s

/-- Frames kept since before the retrain are sent again (R435). -/
def State.resend (s : State) (l : Nat) : State :=
  let x := s.link l
  let s := forEach x.replay s fun s f => s.emit (.frame l (stampFrame f.frame.toNat x.ack x.nak))
  s.modLink l fun x => { x with replay := x.replay.map fun f => { f with resent := f.resent + 1 } }

/-- The link comes up (R446 step 5, R449, R452). -/
def State.linkUp (s : State) (l : Nat) (i : TrainInfo) : State :=
  let x := s.link l
  let lanes := laneSet (goodLanes x i)
  let s := s.modLink l fun x =>
    { x with mode := .up, fail := 0, lanes := BitVec.ofNat 4 lanes, lh := latencyRounds i.rttMax, rtt := i.rttMax,
             wasUp := true, ackAt := s.clock, sendCredit := if x.wasUp then x.sendCredit else firstCredits }
  let s := s.pulseLink l 1
  let s := if lanes ≠ 15 ∧ x.degraded = false then s.pulseLink l 3 else s
  let s := s.modLink l fun x => { x with degraded := lanes != 15 }
  (s.resend l).pumpLink l

/-- Management cycles of a tenth of a second (R7: times in ms and s count in the management domain, of 100 MHz). -/
def cycles100ms : Nat := 10000000

/-- LINK_TRAINING (R446): the training of link `l` ends, after 200 ms where it does not complete. A lane that found no lock fails
(R447). -/
def execLinkTraining (l : Fin 48) (info : Option TrainInfo) (s : State) : Res :=
  .next (let x := s.link l.val
         if x.mode ≠ .training ∧ x.mode ≠ .retraining then s
         else match info with
           | none => (s.reachMgmt (x.trainAt + 2 * cycles100ms)).failLink l.val .failed 0
           | some i =>
             let fault := trainFault s.moduleId x i
             let s := s.sendTraining l.val i fault
             let s := if fault = some 3 then s else s.recordPeer l.val i
             let s := ((upto 4).filter fun n => !bitAt i.locked.toNat n).foldl (fun s n => s.loseLane l.val n) s
             match fault with
             | some r => s.failLink l.val .failed r
             | none => s.linkUp l.val i)

/-- TRAINING_RESTART (R449 step 2): with no signal from a peer, step 1 begins again after 100 ms. -/
def execTrainingRestart (l : Fin 48) (s : State) : Res :=
  .next (if (s.link l.val).mode ≠ .training then s
         else
           let s := s.reachMgmt ((s.link l.val).trainAt + cycles100ms)
           s.modLink l.val fun x => { x with trainAt := s.mgmtClock })

/-- HARNESS_DONE (R449 step 3): every enabled link is UP or FAILED, or 10 s have passed. -/
def execHarnessDone (timedOut : Bool) (s : State) : Res :=
  .next (let ready := s.boot.phase == .ioEnabled || s.boot.phase == .released
         let ended := (upto 48).all fun l => !s.linkEnabled l || (s.link l).mode == .up || (s.link l).mode == .failed
         if s.harness.done || !ready || !(ended || timedOut) then s
         else
           let s := if ended then s else s.reachMgmt (s.harness.trainAt + 100 * cycles100ms)
           ({ s with harness := { s.harness with done := true } }).pulse pgModule 2)

/-- LANE_TEST (R450, R451, R474, R475): a write to LANE_TEST of a lane; custody action 6. -/
def execLaneTest (req : Req) (l : Fin 48) (lane : Fin 4) (value : W32) (s : State) : Res :=
  .next (let n := pgTrunk (trunkOf l.val)
         let off := 0x400 + 4 * (4 * linkNo l.val + lane.val)
         let old := (SMap.getD (s.link l.val).laneTest lane.val 0).toNat
         let v := value.toNat
         let pat := if field v 29 27 < 6 then field v 29 27 else field old 29 27
         let new := field v 31 31 <<< 31 + pat <<< 27 + field v 26 26 <<< 26
         if !s.pageOpen req n || new = old then s
         else if !s.custody.present then s.refuseCw req.val n off
         else
           let testing := fun (s : State) => (s.link l.val).laneTest.any fun t => bitAt t.2.toNat 31
           let was := testing s
           let s := (s.modLink l.val fun x => { x with laneTest := SMap.put x.laneTest lane.val (BitVec.ofNat 32 new) }).logCustody 6 req.val
           if testing s then (if was then s else s.failLink l.val .failed 0)
           else if was && s.linkEnabled l.val then s.startTraining l.val else s)

/-! ### Circuits (R437 to R442) -/

/-- Bits of a CIRCUIT_OPEN argument (R438). -/
def openChannel (arg : Nat) : Channel :=
  { mode := .opened, ctx := field arg 31 26, line := field arg 16 10, base := field arg 9 6, log2 := field arg 5 3, fold := field arg 2 0 }

/-- A channel of link `l`: inbound or outbound. -/
def State.channel (s : State) (inbound : Bool) (l ch : Nat) : Channel :=
  SMap.getD (if inbound then (s.link l).inbound else (s.link l).outbound) ch {}

/-- The channels of a direction of a link. -/
def Link.channels (x : Link) (inbound : Bool) : SMap Channel := if inbound then x.inbound else x.outbound

/-- Phases that the OPEN and STOPPED channels of a direction hold, channel `but` left out (R438, R451). -/
def phasesHeld (m : SMap Channel) (but : Nat) : Nat :=
  m.foldl (fun n c => if c.2.mode = .closed ∨ c.1 = but then n else n + 2 ^ c.2.log2) 0

/-- Whether two channels share a phase of one line. -/
def clash (a b : Channel) : Bool := a.line == b.line && (upto 16).any fun φ => a.holds φ && b.holds φ

/-- Why an open is refused (R438): `true` where one of its conditions holds. -/
def State.openRefused (s : State) (inbound : Bool) (l ch : Nat) (new : Channel) : Bool :=
  let x := s.link l
  let old := s.channel inbound l ch
  let limit := if x.lanes = 15#4 then 24 else 12
  let others := (s.harness.links.filter fun y => y.1 / 24 == l / 24).flatMap fun y =>
    (y.2.channels inbound).filterMap fun c => if c.2.mode ≠ .closed ∧ ¬(y.1 = l ∧ c.1 = ch) then some c.2 else none
  x.mode != .up || s.mt.mode != .synced || old.mode == .opened
    || decide (limit < phasesHeld (x.channels inbound) ch + 2 ^ new.log2)
    || others.any (clash new)
    || (old.mode == .stopped && !(old.line == new.line && old.base == new.base && old.log2 == new.log2 && old.fold == new.fold
        && old.ctx == new.ctx))

/-- Tokens that a launch store holds, and the grant of a landing store (R439). -/
def launchSize (c : Channel) : Nat := 12 * 2 ^ c.log2
def landingGrant (c : Channel) : Nat := 256 * 2 ^ c.log2

/-- CIRCUIT_OPEN (R438, R439, R441): the next entry of trunk `t`'s calendar. -/
def execCircuitOpen (t : Fin 6) (s : State) : Res :=
  .next (match s.takeEntry (pgTrunk t.val) 0x20 with
    | none => s
    | some (e, s) =>
      let arg := e.arg.toNat
      let inbound := bitAt arg 25
      let l := 8 * t.val + field arg 24 22
      let ch := field arg 21 17
      let new := openChannel arg
      if s.openRefused inbound l ch new then (s.pulse (pgTrunk t.val) 6).count (pgTrunk t.val) 194 1
      else if (s.channel inbound l ch).mode = .stopped then
        (s.modChannel inbound l ch fun c => { c with mode := .opened }).pumpLink l
      else
        (s.modChannel inbound l ch fun _ => { new with owed := if inbound then landingGrant new else launchSize new }).pumpLink l)

/-- CIRCUIT_CLOSE (R438): the channel's tokens are discarded and counted. -/
def execCircuitClose (t : Fin 6) (s : State) : Res :=
  .next (match s.takeEntry (pgTrunk t.val) 0x21 with
    | none => s
    | some (e, s) =>
      let arg := e.arg.toNat
      let inbound := bitAt arg 25
      let l := 8 * t.val + field arg 24 22
      let ch := field arg 21 17
      let held := (s.channel inbound l ch).tokens.length
        + (if inbound then 0 else inSlots ch (s.link l).slots)
      let s := (s.countLink l 9 held).modLink l fun x =>
        if inbound then x else { x with slots := clearSlots ch x.slots }
      s.modChannel inbound l ch fun _ => {})

/-- The outbound channel that takes a token driven onto a seam line in phase `φ`: link and channel (R437, R442). -/
def State.outboundAt (s : State) (io line φ f : Nat) : Option (Nat × Nat) :=
  (s.harness.links.flatMap fun l => l.2.outbound.filterMap fun c =>
    if l.1 / 24 = io ∧ c.2.mode ≠ .closed ∧ c.2.line = line ∧ c.2.fold = f ∧ c.2.holds φ ∧ s.ownsLine io c.2 then
      some (l.1, c.1) else none).head?

/-- A flight that has reached its seam line's launch store (R440), or is an unrouted arrival there (R442). -/
def State.landLine (s : State) (io : Nat) (x : Flight) : State :=
  let driven := s.now + 2 ^ 60 - (s.clock - x.due) - 33
  let s := { s with flights := listErase s.flights x }
  match s.outboundAt io (x.dest - seamLine io 0) (driven % 16) x.tok.fold.toNat with
  | none => s.count (pgTrunk (3 * io)) 195 1
  | some (l, ch) => s.modChannel false l ch fun c =>
      { c with tokens := c.tokens ++ [⟨x.tok, driven % 2 ^ 60⟩]
               waitFrom := if c.credit = 0 ∧ c.waitFrom = none then some s.clock else c.waitFrom }

/-- Every flight that has reached I/O die `io` lands. -/
def State.landDie (s : State) (io : Nat) : State :=
  let due := s.flights.filter fun x => decide (seamLine io 0 ≤ x.dest ∧ x.dest < seamLine io 80 ∧ x.due ≤ s.clock)
  due.foldl (fun s x => s.landLine io x) s

/-- The next flight to a channel's line; for a closed channel to any line of the die. -/
def State.nextOnDie (s : State) (io : Nat) (c : Channel) : Option Flight :=
  s.flights.foldl (fun b x =>
    let ours := if c.mode = .closed then decide (seamLine io 0 ≤ x.dest ∧ x.dest < seamLine io 80) else x.dest == seamLine io c.line
    if ours then (match b with
      | none => some x
      | some y => if x.due < y.due then some x else some y)
    else b) none

/-- The link of an edge core on which tokens come from and go to the I/O seam. -/
def seamDir (io : Nat) : Dir := if io = 0 then .west else .east

/-- A launch store's pending credit goes on the seam link's credit lane to the edge switchbox, while the channel runs, its context owns
the line and its fold is active (R171, R176, R439). -/
def State.returnLaunch (s : State) (l ch : Nat) : State :=
  let io := linkDie l
  let c := s.channel false l ch
  let k := lineCluster io c.line
  if c.mode ≠ .opened ∨ c.owed = 0 ∨ !s.ownsLine io c ∨ (s.cl k).activeFold ≠ c.fold then s
  else
    let later := fun i => s.advance (i + creditWait (fun p => c.holds (creditPhase p)) (s.now + i))
    let lane := fun (t : State) =>
      LaneCredit.mk (coreAt k 0 (lineCore io c.line)) (seamDir io) c.fold (creditPhase t.phase) (t.clock + 33)
    let t := later 0
    let t := if t.laneTaken (lane t) then later 1 else t
    ({ t with lanes := t.lanes ++ [lane t] }).modChannel false l ch fun c => { c with owed := c.owed - 1 }

/-- CREDIT_RETURN (R170 to R172): a credit moves one place upstream. -/
def execCreditReturn (p : CreditPlace) (s : State) : Res :=
  .next (match p with
    | .share c q f => s.returnShare c.k.val (coreNum c) q.val f.val
    | .held c f r => s.returnHeld c.k.val (coreNum c) f.val r.val
    | .lane c d f => s.returnLane c.k.val (coreNum c) d f.val
    | .line io n f => s.returnLine io.val n.val f.val
    | .tap k i n => s.returnTap k.val i.val n.val
    | .launch l ch => s.returnLaunch l.val ch.val)

/-- The launch store's oldest token goes into the link (R440). -/
def State.launchToken (s : State) (l ch : Nat) : State :=
  let c := s.channel false l ch
  match c.tokens with
  | [] => s
  | t :: rest =>
    if c.mode ≠ .opened ∨ c.credit = 0 then s
    else
      let s := s.modChannel false l ch fun c =>
        { c with tokens := rest, credit := c.credit - 1, owed := c.owed + 1,
                 waitFrom := if c.credit = 1 ∧ !rest.isEmpty then some s.clock else none }
      ((s.modLink l fun x => { x with slots := joinSlot ch t x.slots }).pumpLink l)

/-- CIRCUIT_TOKEN, outbound: tokens land in the launch store and the oldest goes into the link. -/
def State.tokenOut (s : State) (l ch : Nat) : State :=
  let io := linkDie l
  let s := s.landDie io
  let s := if (s.channel false l ch).tokens.isEmpty then
      (match s.nextOnDie io (s.channel false l ch) with
       | some x => (s.reachClock x.due).landDie io
       | none => s)
    else s
  s.launchToken l ch

/-- Cycles until a channel phase, this cycle included. -/
def Channel.wait (c : Channel) (now : Nat) : Nat := (firstSome (fun i => c.holds ((now + i) % 16)) (upto 16)).getD 0

/-- CIRCUIT_TOKEN, inbound: the landing store drives its oldest token onto the line (R440, R442). -/
def State.tokenIn (s : State) (l ch : Nat) : State :=
  let io := linkDie l
  let c := s.channel true l ch
  match c.tokens with
  | [] => s
  | t :: rest =>
    if c.mode = .closed ∨ c.credit = 0 ∨ !s.ownsLine io c then s
    else
      let s := s.advance (if s.now ≤ t.cycle then t.cycle - s.now else c.wait s.now)
      let core := coreAt (lineCluster io c.line) 0 0 + lineCore io c.line
      let taken := s.flights.any fun x => x.dest == core && x.dir == seamDir io && x.due == s.clock + 33
      let s := if taken then s.advance (1 + c.wait (s.now + 1)) else s
      let s := { s with flights := (addFlight s.flights ⟨core, seamDir io, s.clock + 33, s.clock, t.tok⟩).1 }
      let s := s.modChannel true l ch fun c => { c with tokens := rest, credit := c.credit - 1, owed := c.owed + 1 }
      (s.countLink l 8 1).pumpLink l

/-- CIRCUIT_TOKEN (R440). -/
def execCircuitToken (l : Fin 48) (ch : Fin 32) (inbound : Bool) (s : State) : Res :=
  .next (if inbound then s.tokenIn l.val ch.val else s.tokenOut l.val ch.val)

/-! ### Packets (R443 to R445) -/

/-- ROUTE_WRITE (R443): the entry that RT_INDEX of die `d`'s page names; a reserved TRUNK leaves the field (R11). -/
def execRouteWrite (req : Req) (d : Fin 2) (value : W32) (s : State) : Res :=
  .next (let n := pgIoDie d.val
         if !s.pageOpen req n then s
         else
           let i := s.regOf n 0x90 % 16384
           let old := (SMap.getD s.harness.routes i 0).toNat
           let v := value.toNat
           let trunk := if field v 29 27 < 6 then field v 29 27 else field old 29 27
           let new := field v 31 30 <<< 30 + trunk <<< 27 + v % 256
           { s with harness := { s.harness with routes := SMap.put s.harness.routes i (BitVec.ofNat 32 new) } })

/-- The pair of a packet on a link (R433). -/
def linkPair (p : Packet) : Nat := 2 * channelOf p + ofBool (!p.prio)

/-- A packet that waits for a link to be sent. -/
def State.queuePacket (s : State) (l set : Nat) (p : Packet) : State :=
  (s.modLink l fun x =>
    { x with items := x.items ++ [{ pair := linkPair p, set := set, ctx := p.ctx.toNat, words := packetFlits p }] }).pumpLink l

/-- The links of a route entry that are UP, in ascending order (R444). -/
def State.upLinks (s : State) (e : Nat) : List Nat :=
  let t := field e 29 27
  ((upto 8).filter fun n => bitAt e n && (s.link (8 * t + n)).mode == .up).map fun n => 8 * t + n

/-- The choice of R444 among `u` links. -/
def pathHash (p : Packet) : Nat := (p.dmod.toNat + p.dest.toNat + p.addr.toNat / 2048) % 65536

/-- Whether a packet leaves on set B (R444). -/
def State.onSetB (s : State) (e : Nat) (fromTrunk : Option (Fin 6)) (setB : Bool) : Bool :=
  bitAt e 30 || (setB && match fromTrunk with
    | some t => field (s.regOf (pgTrunk t.val) 0x40) 10 8 == field e 29 27
    | none => false)

/-- A link of trunk `t` on which packet `p` has arrived on a set. -/
def State.arrivedOn (s : State) (t : Nat) (p : Packet) (setB : Bool) : Option Nat :=
  firstSome (fun l => (s.link l).arrived.contains (p, setB)) ((upto 8).map fun n => 8 * t + n)

/-- Flits of a packet that has left a receive buffer for the hub: their credits are due (R436). -/
def State.returnFlits (s : State) (l : Nat) (p : Packet) (setB : Bool) : State :=
  s.modLink l fun x => { x with returns := SMap.mod x.returns (pairSet (linkPair p) (ofBool setB)) 0 (· + flitsOf p) }

/-- The packet is taken from where the hub finds it: a link's receive buffer, or the hub's trunk output. -/
def State.takeAtHub (s : State) (p : Packet) (fromTrunk : Option (Fin 6)) (setB : Bool) : State :=
  match fromTrunk with
  | none => s.receive p
  | some t => match s.arrivedOn t.val p setB with
    | none => s.receive p
    | some l =>
      let s := (s.modLink l fun x => { x with arrived := listErase x.arrived (p, setB) }).returnFlits l p setB
      s.pumpLink l

/-- The answer of the hub to an unroutable packet (R445). -/
def State.unroutable (s : State) (d : Nat) (p : Packet) : State :=
  let s := s.count (pgTrunk (3 * d)) 192 1
  if channelOf p = 0 then s.injectAt (320 + d) 2 (answer p 5 0x85)
  else if channelOf p = 2 then s.injectAt (320 + d) 2 (answer p 0x21 0x85)
  else s

/-- CROSS_MODULE_PACKET (R444, R445). A packet whose trunk lies on the other I/O die crosses the mesh to that hub. -/
def execCrossModulePacket (d : Fin 2) (p : Packet) (fromTrunk : Option (Fin 6)) (setB : Bool) (s : State) : Res :=
  .next (if !s.leavesModule p then s
         else
           let s := s.takeAtHub p fromTrunk setB
           if channelOf p = 3 then s.count (pgTrunk (3 * d.val)) 193 1
           else
             let e := s.routeEntry p.dmod
             let up := if bitAt e 31 then s.upLinks e else []
             if up.isEmpty then s.unroutable d.val p
             else if s.exitHub p ≠ d.val then s.injectAt (320 + d.val) 2 p
             else s.queuePacket (up.getD (pathHash p % up.length) 0) (ofBool (s.onSetB e fromTrunk setB)) p)

/-! ### Frames received (R434, R436, R440, R441) -/

/-- The frames that an ACK covers leave the replay buffer. -/
def dropAcked (ack : Nat) (fs : List SentFrame) : List SentFrame :=
  match fs.findIdx? fun f => f.seq == ack with
  | some i => fs.drop (i + 1)
  | none => fs

/-- An ACK arrives. -/
def State.takeAck (s : State) (l ack : Nat) : State :=
  let x := s.link l
  let rest := dropAcked ack x.replay
  if rest.length = x.replay.length then s else s.modLink l fun x => { x with replay := rest, ackAt := s.clock }

/-- NAK rises: a replay episode from ACK + 1 (R434, R452). -/
def State.replayFrom (s : State) (l ack : Nat) : State :=
  let s := s.takeAck l ack
  if (s.link l).replay.isEmpty then s else (s.countLink l 3 1).resend l

/-- REPLAY (R434): a NAK arrives with ACK `ack`. -/
def execReplay (l : Fin 48) (ack : BitVec 12) (s : State) : Res :=
  .next (if (s.link l.val).mode = .up then
           ((s.replayFrom l.val ack.toNat).modLink l.val fun x => { x with peerNak := true }).pumpLink l.val
         else s)

/-- Credits returned by a `CR` field (R433, R436). -/
def State.takeCr (s : State) (l cr : Nat) : State :=
  let pair := field cr 8 6
  if pair < 6 ∧ cr % 32 ≠ 0 then
    s.modLink l fun x => { x with sendCredit := SMap.mod x.sendCredit (pairSet pair (field cr 5 5)) 0 (· + cr % 32) }
  else s

/-- The counter cycle in which a token is to be driven (R440). -/
def driveCycle (now lh stamp φ : Nat) : Nat :=
  let d := (stamp + lh + 2 + 65536 - now / 16 % 65536) % 65536
  let round := now / 16 + d - (if d < 32768 then 0 else 65536)
  16 * round + φ

/-- A late token or stamp error on an OPEN channel (R441). -/
def State.stampError (s : State) (l ch : Nat) : State :=
  let io := linkDie l
  let c := s.channel true l ch
  let s := (((s.countLink l 9 1).pulseLink l 5).pulseLink l 4).modChannel true l ch fun c => { c with mode := .stopped }
  s.uncontained (lineCluster io c.line) (pgTrunk (trunkOf l)) 0x64 0 15

/-- A token of a circuit slot reaches its landing store (R440, R441). -/
def State.landToken (s : State) (l ch φ stamp : Nat) (tok : Token) : State :=
  let c := s.channel true l ch
  let lh := (s.link l).lh
  let cycle := driveCycle s.now lh stamp φ
  let late := decide (cycle < s.now)
  let skewed := decide (s.now + 16 * (lh + 4) < cycle)
  let s := if c.mode = .closed then s else s.chargeLink l c.ctx true 16
  match c.mode with
  | .closed => s.countLink l 9 1
  | .opened =>
    if late || skewed then s.stampError l ch
    else s.modChannel true l ch fun c => { c with tokens := c.tokens ++ [⟨tok, cycle⟩] }
  | .stopped =>
    if late then (s.countLink l 9 1).modChannel true l ch fun c => { c with owed := c.owed + 1 }
    else s.modChannel true l ch fun c => { c with tokens := c.tokens ++ [⟨tok, cycle⟩] }

/-- Link credits for an outbound channel arrive (R439); a wait of the launch store ends (R452, counter 13). -/
def State.takeCreditWord (s : State) (l w : Nat) : State :=
  let ch := field w 14 10
  let c := s.channel false l ch
  if !bitAt w 15 || c.mode = .closed then s
  else
    let s := match c.waitFrom with
      | some t => if w % 1024 = 0 then s else s.countLink l 13 (s.clock - t)
      | none => s
    s.modChannel false l ch fun c =>
      { c with credit := c.credit + w % 1024, waitFrom := if w % 1024 = 0 then c.waitFrom else none }

/-- A circuit slot (R433). -/
def State.takeCircuit (s : State) (l w : Nat) : State :=
  let s := (upto 3).foldl (fun s i =>
    let d := field w (423 + 16 * i) (408 + 16 * i)
    if bitAt d 15 then
      s.landToken l (field d 14 10) (field d 9 6) (field w 471 456)
        (tokenOf (field w (128 * i + 127) (128 * i)) (field w (391 + 8 * i) (384 + 8 * i)))
    else s) s
  (s.takeCreditWord l (field w 487 472)).takeCreditWord l (field w 503 488)

/-- A whole packet has arrived: one of this module's goes to the hub, another waits to be routed (R444). -/
def State.packetIn (s : State) (l : Nat) (p : Packet) (setB : Bool) : State :=
  if s.leavesModule p then s.modLink l fun x => { x with arrived := x.arrived ++ [(p, setB)] }
  else (s.injectAt (320 + linkDie l) 2 p).returnFlits l p setB

/-- A packet slot or Stitch slot (R433, R436). -/
def State.takeFlit (s : State) (l code w : Nat) : State :=
  let key := pairSet (code % 8) (field code 3 3)
  let fs := SMap.getD (s.link l).assembling key [] ++ [BitVec.ofNat 512 w]
  let s := s.countLink l 12 1
  let s := s.chargeLink l (field (fs.headD 0).toNat 23 18) true 64
  if flitsNamed (fs.headD 0).toNat ≤ fs.length then
    (s.modLink l fun x => { x with assembling := SMap.del x.assembling key }).packetIn l (packetOf fs) (bitAt code 3)
  else s.modLink l fun x => { x with assembling := SMap.put x.assembling key fs }

/-- Slot `i` of an accepted frame. -/
def State.takeSlot (s : State) (l w i : Nat) : State :=
  let code := field w (32 + 6 * i) (27 + 6 * i)
  let bits := field w (96 + 512 * i + 511) (96 + 512 * i)
  if code / 16 = 0 then s
  else if code / 16 = 1 then s.takeCircuit l bits
  else if 6 ≤ code % 8 then s else s.takeFlit l code bits

/-- A data frame that is the next expected one (R434). -/
def State.acceptFrame (s : State) (l w : Nat) : State :=
  let s := (s.countLink l 1 1).modLink l fun x => { x with nak := false, recvSeq := (x.recvSeq + 1) % 4096 }
  let s := (s.takeCr l (field w 26 18)).takeCr l (field w 17 9)
  (upto 6).foldl (fun s i => s.takeSlot l w i) s

/-- ACK and NAK of a frame whose CRC checks. -/
def State.takeAckNak (s : State) (l w : Nat) : State :=
  let nak := bitAt w 63
  let ack := field w 75 64
  let s := if nak && !(s.link l).peerNak then s.replayFrom l ack else s.takeAck l ack
  s.modLink l fun x => { x with peerNak := nak }

/-- A data frame in its turn, out of turn, or again (R434). -/
def State.takeData (s : State) (l w : Nat) : State :=
  let ahead := (field w 87 76 + 4096 - (s.link l).recvSeq) % 4096
  if ahead = 0 then s.acceptFrame l w
  else
    let s := s.countLink l 2 1
    if ahead < 2048 then s.modLink l fun x => { x with nak := true } else s

/-- DATA_FRAME (R434): a frame arrives on link `l`. A frame whose CRC fails is discarded and replay is asked for. -/
def execDataFrame (l : Fin 48) (frame : BitVec 3200) (s : State) : Res :=
  .next (let l := l.val
         let w := frame.toNat
         let training := (s.link l).mode == .training || (s.link l).mode == .retraining
         if training && frameCrc w == field w 3199 3168 && field w 95 88 == 2 && field w 111 96 == 2 then
           s.sendManagement l 3 0 0 0 (field w 207 144)
         else if (s.link l).mode ≠ .up then s
         else if frameCrc w ≠ field w 3199 3168 then
           ((s.countLink l 2 1).modLink l fun x => { x with nak := true }).sendIdle l
         else
           let ftype := field w 95 88
           if 2 < ftype then s.countLink l 2 1
           else
             let s := s.takeAckNak l w
             let s := if ftype = 1 then s.takeData l w else s
             let sent := (s.link l).sendSeq
             let s := s.pumpLink l
             if ftype = 1 ∧ (s.link l).sendSeq = sent then s.sendIdle l else s)

end Sys2Proof.Machine
end

