-- ==== Sys2Proof/Machine/Checks.lean ====
section
/-! DEFINITION. The checks of a section at its load (R106 to R111, R142, R168, R197 to R200) and of a task at its start (R149,
R183, R235). -/
namespace Sys2Proof.Machine

/-! ### Reserved encodings of a configuration word (R106 to R111) -/

/-- A destination field without a reserved code (R102). -/
def destOk (d : Nat) : Bool := decide (dCode d < 8)

/-- A source code that is not reserved (R82). -/
def srcOk (x : Nat) : Bool := decide (x < 0x12)

/-- The slot header (R107). -/
def headerOk (w slot : Nat) : Bool :=
  field w 62 60 == slot && decide (cwTick w < 4 ∧ cwCtEmit w < 6) && (upto 8).all fun q => decide (cwCred w q ≤ 16)

/-- The DPE field group (R108). -/
def dpeFieldsOk (w : Nat) : Bool :=
  decide (cwDpeOp w < 2 ∧ cwPairing w < 8 ∧ cwAccLog w < 5 ∧ cwEmit w < 6 ∧ field w 84 82 < 5 ∧ field w 81 79 < 5)
    && srcOk (cwDpeA w) && srcOk (cwDpeB w) && destOk (cwDpeDest w) && field w 77 64 == 0

/-- The LE field group (R109). -/
def leFieldsOk (w : Nat) : Bool :=
  decide (cwLeOp w < 8 ∧ cwLeFmt w < 3 ∧ field w 157 155 < 5 ∧ field w 154 152 < 5 ∧ field w 151 149 < 5)
    && srcOk (field w 183 179) && srcOk (field w 178 174) && srcOk (field w 173 169) && destOk (cwLeDest w)
    && field w 148 128 == 0

/-- The CE field group (R110). -/
def ceFieldsOk (w : Nat) : Bool :=
  decide (cwCeOp w < 4) && srcOk (cwCtSrc w) && srcOk (cwSrcD w) && srcOk (cwSrcE w) && destOk (cwDestT w)
    && destOk (cwDestF w) && field w 193 192 == 0

/-- The control-token destination and the routes (R111). -/
def tailFieldsOk (w : Nat) : Bool :=
  destOk (cwCtDest w) && (upto 4).all fun r => decide (field (cwRoute w r) 11 9 < 5)

/-! ### Sources, widths and queues (R82, R84, R106, R108, R109) -/

/-- What an operand may name. -/
structure Operand where
  src : Nat
  /-- 32 B, 16 B, or a width that is not checked. -/
  wide : Option Bool
  /-- The codes allowed for it. -/
  allowed : List Nat
deriving DecidableEq, Repr

def queueCodes : List Nat := upto 8
def pairCodes : List Nat := [8, 9, 10, 11]

/-- The operands that the slot's operations read (R106). -/
def wordOperands (w : Nat) : List Operand :=
  let base := queueCodes ++ pairCodes ++ [12, 13, 14, 17]
  let dpe := base ++ (if cwGang w then [15] else [])
  let le := base ++ [16]
  let width := fun src wide => if cwGang w && src == 15 then none else some wide
  let op := cwLeOp w
  let wide := !cwHalf w
  (if cwDpeOp w = 1 then
    match pairingInfo (cwPairing w) (ofBool (bitAt w 119)) (ofBool (bitAt w 118)) with
    | some (_, _, _, wa, wb) =>
      [⟨cwDpeA w, width (cwDpeA w) (wa == 32), dpe⟩, ⟨cwDpeB w, width (cwDpeB w) (wb == 32), dpe⟩]
    | none => []
   else [])
  ++ (if op = 0 then [] else [⟨field w 183 179, some wide, le⟩])
  ++ (if 1 ≤ op ∧ op ≤ 6 then [⟨field w 178 174, some (wide && !cwBcast w), le⟩] else [])
  ++ (if op = 1 then [⟨field w 173 169, some wide, le⟩] else [])
  ++ (if cwCeOp w = 1 ∨ cwCeOp w = 2 then
        [⟨cwCtSrc w, none, queueCodes ++ [12]⟩, ⟨cwSrcD w, none, queueCodes ++ [12]⟩] else [])
  ++ (if cwCeOp w = 2 then [⟨cwSrcE w, none, queueCodes ++ [12]⟩] else [])
  ++ (if cwCeOp w = 3 then [⟨cwSrcD w, none, queueCodes ++ [12, 13, 14]⟩] else [])

/-- Whether a source fits a width: 32 B a pair, a store pointer, the lattice or zero; 16 B a queue, the group, a store pointer,
the accumulators or zero. -/
def widthOk (src : Nat) (wide : Bool) : Bool :=
  if wide then pairCodes.contains src || src == 13 || src == 14 || src == 15 || src == 17
  else decide (src < 8) || src == 12 || src == 13 || src == 14 || src == 16 || src == 17

/-- Whether an operand's source is allowed and of its width. -/
def Operand.ok (o : Operand) : Bool :=
  o.allowed.contains o.src && (match o.wide with | some b => widthOk o.src b | none => true)

/-- The queues that a source reads. -/
def srcQueues (w src : Nat) : List Nat :=
  if src < 8 then [src]
  else if src < 12 then [2 * (src - 8), 2 * (src - 8) + 1]
  else if src = 12 then (upto 8).filter (cwInGroup w) else []

/-- Whether a list holds no number twice. -/
def noTwice : List Nat → Bool
  | [] => true
  | x :: xs => !xs.contains x && noTwice xs

/-- R82, R83, R84 and the widths. -/
def sourcesOk (w : Nat) : Bool :=
  let os := wordOperands w
  os.all (·.ok) && noTwice (os.flatMap fun o => srcQueues w o.src) && decide ((os.filter fun o => o.src == 12).length ≤ 1)

/-! ### Routes (R106, R168) -/

/-- Valid routes of a word. -/
def validRoutes (w : Nat) : List Nat := (upto 4).filter (rtValid w)

/-- Whether two routes, of words `v` and `w`, share a phase. -/
def phasesMeet (v r w t : Nat) : Bool := (upto 16).any fun φ => rtHolds v r φ && rtHolds w t φ

/-- Pairs of different valid routes of a word. -/
def routePairs (w : Nat) : List (Nat × Nat) :=
  (validRoutes w).flatMap fun r => ((validRoutes w).filter (r < ·)).map (r, ·)

/-- Two valid routes never use one output link in one phase (R106). -/
def outputsOk (w : Nat) : Bool :=
  (routePairs w).all fun p => !((upto 4).any fun d => rtDrives w p.1 d && rtDrives w p.2 d) || !phasesMeet w p.1 w p.2

/-- The links that a core has (R174, R175). -/
def State.hasLink (s : State) (k n d : Nat) : Bool := (s.farEnd k n (dirOf d)).isSome

/-- Items 1 to 5 of R168 for one slot. -/
def State.routesOk (s : State) (k n w : Nat) : Bool :=
  (validRoutes w).all (fun r =>
    (rtLocal w r || (upto 4).any (rtDrives w r)) && !(decide (rtIn w r < 4) && rtDrives w r (rtIn w r))
      && (decide (4 ≤ rtIn w r) || s.hasLink k n (rtIn w r))
      && (upto 4).all (fun d => !rtDrives w r d || s.hasLink k n d)
      && (!rtLocal w r || cwCred w (cwLocalQ w r) != 0))
  && (routePairs w).all fun p =>
    !(rtIn w p.1 == rtIn w p.2 && phasesMeet w p.1 w p.2)
      && !(rtLocal w p.1 && rtLocal w p.2 && cwLocalQ w p.1 == cwLocalQ w p.2)

/-- Item 6 of R168: destinations that name a port. -/
def portDestsOk (w slot : Nat) (gang : Option Nat) : Bool :=
  (usedDests w gang).all fun d =>
    decide (4 ≤ dCode d) || (dFold d == slot && (validRoutes w).any fun r => rtIn w r == 4 + dCode d)

/-- The words of a core, by slot. -/
abbrev CoreWords := List Nat

/-- The slots of a core that are valid. -/
def validSlots (ws : CoreWords) : List (Nat × Nat) := (ws.zipIdx.filter fun x => cwValid x.1).map fun x => (x.2, x.1)

/-- Items 7 and 9 of R168 for slot `f` among the valid slots `vs` of its core; item 9 looks at the slots above. -/
def crossSlotsOk (vs : List (Nat × Nat)) (gang : Nat → Option Nat) (f : Nat × Nat) : Bool :=
  (validRoutes f.2).all (fun r => !rtLocal f.2 r || !vs.any fun g => loopsTo g.2 (gang g.1) (cwLocalQ f.2 r) f.1)
  && (vs.filter fun g => decide (f.1 < g.1)).all fun g =>
    (validRoutes f.2).all fun r => (validRoutes g.2).all fun t =>
      !(rtLocal f.2 r && rtLocal g.2 t && cwLocalQ f.2 r == cwLocalQ g.2 t && phasesMeet f.2 r g.2 t)

/-- The Lacing descriptors of a type that a cluster's unit holds (R303, log 47). -/
def ClusterState.laced (c : ClusterState) (op : Nat) : List Nat :=
  (c.lacing.active.map (·.2.bits) ++ c.lacing.queue.map (·.bits.toNat)).filter fun w => lcOp w == op

/-- Whether a Lacing descriptor covers core `n`'s link `d` in phase `φ`. -/
def lcCovers (w n d φ : Nat) : Bool := lcEdge w == d && lcHolds w φ && (lcLineOf w n).isSome

/-- No route of a word drives a link in a phase that a SOURCE drives (R303). -/
def State.sourceFree (s : State) (k n w : Nat) : Bool :=
  ((s.cl k).laced 2).all fun x => (validRoutes w).all fun r => (upto 4).all fun d =>
    !rtDrives w r d || (upto 16).all fun φ => !rtHolds w r φ || !lcCovers x n d φ

/-- R106 and items 1 to 7 and 9 of R168 for one core: the first slot that breaks a rule. A sum of shares above 16 is no one slot's
fault: it names the first valid slot (log 47). -/
def State.coreFault (s : State) (k n : Nat) (ws : CoreWords) (gang : Nat → Option Nat) : Option Nat :=
  let vs := validSlots ws
  let shares := (upto 8).all fun q => decide (vs.foldl (fun t v => t + cwCred v.2 q) 0 ≤ 16)
  match firstSome (fun v =>
    !(headerOk v.2 v.1 && dpeFieldsOk v.2 && leFieldsOk v.2 && ceFieldsOk v.2 && tailFieldsOk v.2 && sourcesOk v.2
      && outputsOk v.2 && s.routesOk k n v.2 && portDestsOk v.2 v.1 (gang v.1) && crossSlotsOk vs gang v
      && s.sourceFree k n v.2)) vs with
  | some v => some v.1
  | none => if shares then none else (vs.head?).map (·.1)

/-! ### Gang descriptors and schedules (R142, R148, R199) -/

/-- Reserved encodings of a valid gang descriptor (R148). -/
def gdFieldsOk (w f : Nat) : Bool :=
  gdFold w == f && decide (gdOrgI w + field w 53 51 ≤ 7 ∧ gdOrgJ w + field w 50 48 ≤ 7) && decide (gdPairing w < 8)
    && gdKs w != 0 && gdM w != 0 && gdN w != 0 && decide (gdMLast w ≤ 4 * gdR w ∧ gdNLast w ≤ 4 * gdC w)
    && decide (gdDrainMode w < 2) && (decide (dCode (gdDoneDest w) < 5) || dCode (gdDoneDest w) == 7)
    && decide (gdAWin w < 13 ∧ gdBWin w < 13) && field w 511 192 == 0

/-- Whether a member's slot agrees with the descriptor (R142). -/
def memberOk (g w : Nat) : Bool :=
  cwDpeOp w == 1 && cwDpeA w == 15 && cwDpeB w == 15 && cwPairing w == gdPairing g && bitAt w 119 == bitAt g 43
    && bitAt w 118 == bitAt g 42 && bitAt w 78 == bitAt g 41

/-- R142 for fold `f`: `words n` the words of core `n`. -/
def gangOk (words : Nat → CoreWords) (g f : Nat) : Bool :=
  let word := fun n => (words n).getD f 0
  let members := (upto 1024).filter fun n => cwValid (word n) && cwGang (word n)
  if !gdValid g then members.isEmpty
  else
    gdFieldsOk g f && !members.isEmpty
      && (upto 1024).all (fun n => members.contains n == ((gdMembers g).map (·.1)).contains n)
      && members.all (fun n => memberOk g (word n))
      && (!gdGateEn g || !((wordOperands (word (gdOrigin g))).flatMap fun o => srcQueues (word (gdOrigin g)) o.src).contains (gdGateQ g))

/-- A fold-schedule entry (R195, R199): the zero fields of an unused one are checked too, its BEAT is not. -/
def scheduleOk (e : Nat) : Bool :=
  let action := field e 127 120
  field e 119 112 == 0 && field e 79 51 == 0
    && (action == 0 || (action == 1 && decide (1 ≤ field e 47 0 ∧ field e 47 0 < 2 ^ 32)))

/-! ### The header and the directory (R197, R198, R200) -/

/-- Rows of a cluster block (R199). -/
def blockRows (hasStore : Bool) : Nat := if hasStore then 5122 else 1026

/-- Rows of the directory. -/
def dirRows (n : Nat) : Nat := (n + 31) / 32

/-- Whether row 0 is the header of an image for `n` clusters. -/
def sectionHeaderOk (w n : Nat) : Bool :=
  field w 31 0 == 0x4C534543 && field w 47 32 == 1 && field w 56 48 == n && field w 63 57 == 0 && field w 95 72 == 0
    && field w 4095 128 == 0

/-- Whether a directory entry's block lies in the image, behind the directory. -/
def dirEntryOk (e rows n : Nat) : Bool :=
  field e 127 36 == 0 && decide (1 + dirRows n ≤ field e 31 0) && decide (field e 31 0 + blockRows (bitAt e 32) ≤ rows)

/-! ### A cluster's block -/

/-- The staged block of a cluster: its rows as numbers. -/
structure Block_ where
  k : Nat
  rows : List Nat
  hasStore : Bool
  initFold : Nat
deriving DecidableEq, Repr

def Block_.row (b : Block_) (m : Nat) : Nat := b.rows.getD m 0
/-- Gang descriptor of fold `f`. -/
def Block_.gd (b : Block_) (f : Nat) : Nat := field (b.row 0) (512 * f + 511) (512 * f)
/-- Schedule entry `n`. -/
def Block_.entry (b : Block_) (n : Nat) : Nat := field (b.row 1) (128 * n + 127) (128 * n)
/-- The words of core `n`. -/
def Block_.words (b : Block_) (n : Nat) : CoreWords := (upto 8).map fun f => field (b.row (2 + n)) (512 * f + 511) (512 * f)
/-- The gang descriptor of fold `f` for core `n`, where that is its origin. -/
def Block_.gang (b : Block_) (n f : Nat) : Option Nat :=
  if gdValid (b.gd f) && gdOrigin (b.gd f) == n then some (b.gd f) else none

/-- A check of R200 that failed: code of R373, cluster, core, slot, block row. -/
structure SectionFault where
  code : Nat
  cluster : Nat
  core : Nat := 0
  slot : Nat := 0
  row : Nat := 0
deriving DecidableEq, Repr

/-- The checks of one block as its rows land, in row order (R206). -/
def State.blockFault (s : State) (b : Block_) : Option SectionFault :=
  match firstSome (fun f => !gangOk b.words (b.gd f) f) (upto 8) with
  | some f => some ⟨1, b.k, 0, f, 0⟩
  | none =>
    if !(upto 32).all fun n => scheduleOk (b.entry n) then some ⟨1, b.k, 0, 0, 1⟩
    else (upto 1024).findSome? fun n => (s.coreFault b.k n (b.words n) (b.gang n)).map fun f => ⟨0, b.k, n, f, 2 + n⟩

/-! ### Continuity (item 8 of R168) -/

/-- The words of a core of the section. -/
def wordsOfSection (bs : List Block_) (k n : Nat) : Option CoreWords := (firstSome (fun b => b.k == k) bs).map (·.words n)

/-- Whether every phase that route `r` of slot `f` drives on link `d` is taken on the other side, by a route or a terminal TAP. -/
def State.drivenOk (s : State) (bs : List Block_) (k n f w r d : Nat) : Bool :=
  match s.farEnd k n (dirOf d) with
  | none => true
  | some e =>
    if 327680 ≤ e.dest then true
    else match wordsOfSection bs (e.dest / 1024) (e.dest % 1024) with
      | none => true
      | some ws =>
        let v := ws.getD f 0
        (upto 16).all fun φ => !rtHolds w r φ || (cwValid v && (routeFor v (dirNum e.dir) ((φ + 1) % 16)).isSome)
          || ((s.cl (e.dest / 1024)).laced 1).any fun x =>
            lcTerminal x && lcFold x == f && lcCovers x (e.dest % 1024) (dirNum e.dir) ((φ + 1) % 16)

/-- Whether every phase that route `r` takes from link `d` is driven on the other side, by a route or a SOURCE. -/
def State.takenOk (s : State) (bs : List Block_) (k n f w r d : Nat) : Bool :=
  match s.farEnd k n (dirOf d) with
  | none => true
  | some e =>
    if 327680 ≤ e.dest then true
    else match wordsOfSection bs (e.dest / 1024) (e.dest % 1024) with
      | none => true
      | some ws =>
        let v := ws.getD f 0
        (upto 16).all fun φ => !rtHolds w r φ ||
          (cwValid v && (validRoutes v).any fun t => rtDrives v t (dirNum e.dir) && rtHolds v t ((φ + 15) % 16))
          || ((s.cl (e.dest / 1024)).laced 2).any fun x =>
            lcFold x == f && lcCovers x (e.dest % 1024) (dirNum e.dir) ((φ + 15) % 16)

/-- The first slot of a block that breaks item 8. -/
def State.continuityFault (s : State) (bs : List Block_) (b : Block_) : Option SectionFault :=
  (upto 1024).findSome? fun n => (validSlots (b.words n)).findSome? fun v =>
    let f := v.1
    let w := v.2
    let bad := (validRoutes w).any fun r =>
      !((upto 4).all fun d => !rtDrives w r d || s.drivenOk bs b.k n f w r d)
        || (decide (rtIn w r < 4) && !s.takenOk bs b.k n f w r (rtIn w r))
    if bad then some ⟨0, b.k, n, f, 2 + n⟩ else none

/-- The first check that a section's blocks fail: each block's own, then continuity. -/
def State.sectionFault (s : State) (bs : List Block_) : Option SectionFault :=
  match bs.findSome? s.blockFault with
  | some x => some x
  | none => bs.findSome? (s.continuityFault bs)

/-! ### Checks at a task's start (R149, R183, R235) -/

/-- The last handle row that an operand of a gang reaches, over every panel and K-step. -/
def lastPieceRow (row0 stride win rows panels ks : Nat) : Nat :=
  let steps := if win = 0 then ks - 1 else min (ks - 1) (2 ^ win - 1)
  row0 + (panels - 1) * stride + steps * rows + rows - 1

/-- Whether the gang of a fold passes R149. -/
def ClusterState.gangStartOk (c : ClusterState) (w : Nat) : Bool :=
  let good := fun h last => (c.handle h).valid && !(c.handle h).isRing && decide (last < (c.handle h).length)
  good (gdAHandle w) (lastPieceRow (gdARow0 w) (gdAStride w) (gdAWin w) (gdARows w) (gdM w) (gdKs w))
    && good (gdBHandle w) (lastPieceRow (gdBRow0 w) (gdBStride w) (gdBWin w) (gdBRows w) (gdN w) (gdKs w))
    && (gdDrainMode w != 1 || good (gdDrainHandle w) (gdDrainRow0 w + gdM w * gdN w * 4 * gdR w - 1))

/-- The first fold whose gang fails R149. -/
def ClusterState.gangFault (c : ClusterState) : Option Nat :=
  firstSome (fun f => gdValid (c.gd f) && !c.gangStartOk (c.gd f)) (upto 8)

/-- The slack paths of a cluster: core, fold, handle. -/
def ClusterState.slackPaths (c : ClusterState) : List (Nat × Nat × Nat) :=
  c.cores.flatMap fun x => (upto 8).filterMap fun f =>
    let w := x.2.word f
    if cwValid w && cwSlackEn w then some (x.1, f, cwSlackHandle w) else none

/-- The first slack path that fails R183. -/
def ClusterState.slackFault (c : ClusterState) : Option (Nat × Nat) :=
  let ps := c.slackPaths
  (firstSome (fun p =>
    let h := c.handle p.2.2
    let w := (c.core p.1).word p.2.1
    !h.valid || h.length == 0 || h.isRing || (ps.filter fun q => q.2.2 == p.2.2).length != 1
      || (routeFeeding w (cwSlackQ w)).isNone) ps).map fun p => (p.1, p.2.1)

/-- Whether a notified share is also fed by a route, a loopback or another notifier (R235). -/
def ClusterState.noteFault (c : ClusterState) : Bool :=
  let ns := c.handles.filter fun h => h.2.valid && h.2.step != 0
  ns.any fun h =>
    let n := h.2.noteCore
    let q := h.2.noteQueue
    let f := h.2.noteFold
    (routeFeeding ((c.core n).word f) q).isSome || c.loopsInto n q f
      || ns.any fun g => g.1 != h.1 && g.2.noteCore == n && g.2.noteQueue == q && g.2.noteFold == f

end Sys2Proof.Machine
end

