-- ==== Sys2Proof/Machine/Regions.lean ====
section
/-! DEFINITION. Regions (spec/08, R374 to R376): reserving, releasing, loading a section by drain or purge, committing it, fold
switches, and what a task start and a commit reset in a cluster (R104, R171). -/
namespace Sys2Proof.Machine

/-! ### Resets of a cluster (R104, R171, R191, R265) -/

/-- Tokens of fold `f` that share (`q`, `f`) holds, its slack path's included (R183). -/
def CoreState.shareTokens (c : CoreState) (q f : Nat) : Nat :=
  c.held q f + (if c.hasPath q f then (c.path f).tokens else 0)

/-- The grant of a share that a route of slot `f` feeds (R171). -/
def CoreState.grant (c : CoreState) (q f : Nat) : Nat :=
  cwCred (c.word f) q + (if c.hasPath q f then 30 else 0) - c.shareTokens q f

/-- The pending grants of a core, which become pending in cycle `t`. -/
def CoreState.grants (c : CoreState) (t : Nat) : SMap PendingCredit :=
  (upto 8).foldl (fun m f => (upto 8).foldl (fun m q =>
    if (routeFeeding (c.word f) q).isSome && c.grant q f != 0 then SMap.put m (pairKey q f) ⟨c.grant q f, t + 1⟩
    else m) m) []

/-- R104 and R171 on a core, in cycle `t`. -/
def CoreState.startReset (c : CoreState) (t : Nat) : CoreState :=
  let c := { c with ctr := [], rot := [], span := [], acc := [], sums := [], carriedEnd := [], exhausted := [], closed := [],
                    marks := [], bank := [], credit := [], branch := [], pendCredit := [], portTurn := [],
                    ctrHeld := none, exhaustedAt := 0, turns := [] }
  { c with pendCredit := c.grants t }

/-- Every tile of a cluster FREE with undefined contents (R265). -/
def ClusterState.freeTiles (c : ClusterState) (free : Nat) : ClusterState :=
  { c with fes := (upto 4).foldl (fun m e => SMap.mod m e {} fun fe =>
      { fe with tiles := (upto 4).foldl (fun ts t => SMap.put ts t { base := free + 4 * e + t }) [] }) c.fes }

/-- R104, R171 and R265 on a cluster in cycle `t`; gang state starts afresh. -/
def ClusterState.startReset (c : ClusterState) (t free : Nat) : ClusterState :=
  { (c.freeTiles free) with
    gang := {}, cores := SMap.mapAll c.cores (·.startReset t) }

/-- Channels of a direction whose seam line lies in one of the clusters `ks` changed by `f`. -/
def onSeams (ks : List Nat) (l : Nat) (m : SMap Channel) (f : Channel → Channel) : SMap Channel :=
  SMap.mapAll m fun c => if c.mode ≠ .closed ∧ ks.contains (lineCluster (l / 24) c.line) then f c else c

/-- Whether a credit on a lane belongs to a circuit of the clusters `ks`: one of its ends lies there. -/
def State.laneIn (s : State) (ks : List Nat) (x : LaneCredit) : Bool :=
  let other := if 327680 ≤ x.dest then some (lineCluster ((x.dest - 327680) / 80) ((x.dest - 327680) % 80))
    else s.acrossCluster (x.dest / 1024) (x.dest % 1024) x.dir
  ks.contains (x.dest / 1024) || other.any ks.contains

/-- At a task start or commit the credits on the lanes of the region's circuits are dropped (R171); launch stores grant their free
entries anew, and landing stores' counters are zero (R439). -/
def State.seamGrants (s : State) (ks : List Nat) : State :=
  { s with lanes := s.lanes.filter (fun x => !s.laneIn ks x), harness := { s.harness with links := s.harness.links.map fun l =>
      (l.1, { l.2 with outbound := onSeams ks l.1 l.2.outbound fun c => { c with owed := 12 * 2 ^ c.log2 - c.tokens.length }
                       inbound := onSeams ks l.1 l.2.inbound fun c => { c with credit := 0 } }) } }

/-- The clear of R191. -/
def ClusterState.clear (c : ClusterState) : ClusterState :=
  { c with
    cores := SMap.mapAll c.cores fun n =>
      { stalls := n.stalls, parityErrors := n.parityErrors, firedBeat := n.firedBeat, nextFire := n.nextFire }
    gangDesc := [], schedule := [], initFold := 0, armed := [], next := [], nextStore := false, loadPhase := 0
    gang := {}, rows := [], rowsFree := none
    handles := SMap.mapAll c.handles fun h => { h with base := h.base &&& 0x7FFFFFFF#32 }
    frozen := false, idleBeats := 0, isClosed := false, stopped := false }

/-- The clear of cluster `k`, its QUIET_ROUNDS included (R191). -/
def State.clearCluster (s : State) (k : Nat) : State :=
  let n := pgClCtrl k
  (s.modCl k (·.clear)).setReg n 0x31C (setField (s.regOf n 0x31C) 15 8 0)

/-- The requests of the fill engine in a release clear, one on each wide port, and the rows that it fills (R230). -/
def State.clearRows (s : State) (k : Nat) : State :=
  let half := fun p => (burstsOf 64 (4096 * p) 4096 s.clock true).map fun q => { q with only := some p }
  ((s.askRows k 14 (half 0)).askRows k 15 (half 1)).count (pgRowmem k) 8 8192

/-! ### Retirements that take effect (R486, R487) -/

/-- The live map has changed (R487). -/
def State.liveChanged (s : State) : State := s.pulse pgModule 3

/-- A cluster retirement takes effect (R487). -/
def State.retireCluster (s : State) (k : Nat) : State :=
  let was := s.isLive k
  let s := s.modCl k fun c => { skipRow := c.skipRow, coreRetired := c.coreRetired, retired := true, power := .off }
  let other := fun (n : Nat) => decide (0x4000 ≤ n) && (n - 0x4000) / 0x40 == k && (n - 0x4000) % 0x40 != 0
  let s := { s with pages := s.pages.filter fun g => !other g.1 }
  if was then s.liveChanged else s

/-- A retirement takes effect on a cluster in no region (R486, R487). -/
def State.applyRetire (s : State) (u : RetireUnit) : State :=
  match u with
  | .cluster k => s.retireCluster k.val
  | .core k column row =>
    if (s.cl k.val).coreRetired.any fun p => p.1 == column.val then s.retireCluster k.val
    else
      let s := s.modCl k.val fun c =>
        { c with coreRetired := c.coreRetired ++ [(column.val, row.val)], skipRow := SMap.put c.skipRow column.val row.val }
      s.clearCluster k.val

/-- The cluster of a retirement. -/
def retireOf : RetireUnit → Nat
  | .core k _ _ => k.val
  | .cluster k => k.val

/-- Whether a retirement of cluster `k` is pending (R487). -/
def State.retirePending (s : State) (k : Nat) : Bool := s.spares.pending.any fun u => retireOf u == k

/-- The pending retirements of clusters that have become FREE take effect. -/
def State.applyPending (s : State) (ks : List Nat) : State :=
  let due := s.spares.pending.filter fun u => ks.contains (retireOf u)
  let s := { s with spares := { s.spares with pending := s.spares.pending.filter fun u => !ks.contains (retireOf u) } }
  due.foldl (fun s u => s.applyRetire u) s

/-! ### RESERVE_REGION (R189, R374, R385, R495) -/

/-- A self-test of cluster `k` is stopped, and the cluster cleared (R495). -/
def State.stopTest (s : State) (k : Nat) : State :=
  if s.tests.running.any fun t => t.1 == k then
    let s := { s with tests := { s.tests with
      running := s.tests.running.filter fun t => t.1 != k, cluster := k, pass := false, stopped := true } }
    ((s.clearCluster k).modCl k fun c =>
      { c with selfTest := false, power := if c.retired then .off else .idle }).count pgMgmt 2 1
  else s

/-- The power-wanted events of a reservation cease (R415). -/
def State.powerGiven (s : State) (ks : List Nat) : State := ks.foldl (fun s k => s.dropEvent (pgClPower k) 1) s

/-- A reservation is answered, and the region manager turns to the next. -/
def State.reserved (s : State) (x : Nat) (seq : W32) (ks : List Nat) (status imm : Nat) : State :=
  let s := { s with host := { s.host with reserving := s.host.reserving.drop 1 } }
  (s.powerGiven ks).complete x seq status imm

/-- The clusters that a command names; none where it is no longer in progress. -/
def State.namedBy (s : State) (x : Nat) (seq : W32) : List Nat :=
  match (s.ctx x).command seq with
  | some c => dClusters c.desc.toNat
  | none => []

/-- The region manager gives out cleared clusters: one whose island was reset while FREE is cleared here (R191, log 47). It handles its oldest reservations until one waits for power (R371, R374, R385, R415). -/
def State.handleReserves : (fuel : Nat) → State → State
  | 0, s => s
  | fuel + 1, s =>
    match s.host.reserving with
    | [] => s
    | (x, seq, since) :: rest =>
      let ks := s.namedBy x seq
      let free := (upto 128).filter fun r => (s.region r).state == .free
      let off := ks.filter fun k => (s.cl k).power == .off
      let next := State.handleReserves fuel
      if ks.any fun k => (s.regionOf? k).isSome || (s.cl k).retired || s.retirePending k then
        next (s.reserved x seq ks stClusterBusy 0)
      else if !ks.all s.isLive then next (s.reserved x seq ks stNotReady 0)
      else if free.isEmpty then next (s.reserved x seq ks stNoRegion 0)
      else if !off.isEmpty then
        if since.isSome then s
        else
          let s := off.foldl (fun s k => s.raiseEvent (pgClPower k) 1) s
          { s with host := { s.host with reserving := (x, seq, some s.beat) :: rest } }
      else
        let p := s.fresh
        let r := free.getD (Config.regionPick p.1 % free.length) 0
        let s := ks.foldl (fun s k => (s.stopTest k).clearCluster k) p.2
        let s := s.modRegion r fun _ => { state := .reserved, owner := x, clusters := ks }
        next (s.reserved x seq ks stSuccess (r + ks.length <<< 16))

/-- The reservations that can be answered now. -/
def State.tryReserves (s : State) : State := State.handleReserves (s.host.reserving.length + 1) s

/-- RESERVE_REGION (R374). -/
def execReserveRegion (x : Ctx) (seq : W32) (s : State) : Res :=
  .next (match s.startCmd x.val seq 1 with
    | none => s
    | some (_, s) =>
      { s with host := { s.host with reserving := s.host.reserving ++ [(x.val, seq, none)] } }.tryReserves)

/-- RESERVE_POWER_TIMEOUT (R415): the 1,024 beats after that in which the reservation began to wait for power have run (R6). -/
def execReservePowerTimeout (x : Ctx) (seq : W32) (s : State) : Res :=
  .next (match s.host.reserving with
    | (y, q, some b) :: _ =>
      if y = x.val ∧ q = seq then
        let s := s.reachBeat (b + 1025#48)
        (s.reserved y q (s.namedBy y q) stNotReady 0).tryReserves
      else s
    | _ => s)

/-! ### The end of a load without a commit (R203, R206, R376) -/

/-- The region returns to its state before the load, which completes with `e`. -/
def State.endLoad (s : State) (r : Nat) (e : Ending) : State :=
  let g := s.region r
  match g.load with
  | none => s
  | some l =>
    let s := s.modCls g.clusters fun c => { c with loadPhase := 0, isClosed := false, next := [] }
    let s := s.modRegion r fun g => { g with state := l.before, load := none }
    (s.settleAll g.clusters).completeFault l.ctx l.seq e

/-- The next beat boundary. -/
def State.nextBeat (s : State) : State := s.advance (4096 - s.now % 4096)

/-! ### RELEASE_REGION (R191, R374, R376, R391) -/

/-- Entries of an action removed from the calendars of clusters. -/
def State.unpost (s : State) (ks : List Nat) (drop : CalEntry → Bool) : State :=
  ks.foldl (fun s k => s.setCal (pgClCtrl k) ((s.cal (pgClCtrl k)).filter fun e => !drop e)) s

/-- A candidate that has not started is dropped: its entries, its grant, its record (R391). -/
def State.dropCandidate (s : State) (r : Nat) : State :=
  let g := s.region r
  match g.task with
  | none => s
  | some t =>
    let s := s.unpost g.clusters fun e => e.action == 3
    let s := (s.unbook r).modRegion r fun g => { g with task := none }
    s.complete t.ctx t.seq stAborted 0

/-- A forced release of a region with a task or a load (R376, R391). -/
def State.forceRelease (s : State) (r : Nat) : State :=
  let g := s.region r
  let s := match g.task with
    | some t => if t.started then s.endTask (g.clusters.headD 0) { status := stAborted } else s.dropCandidate r
    | none => s
  match g.load with
  | some _ => s.nextBeat.endLoad r { status := stAborted, cluster := g.clusters.headD 0 }
  | none => s

/-- RELEASE_REGION (R374, R376): gang state is discarded (R162); the clear of R191 follows, once no task and no load is left. -/
def execReleaseRegion (x : Ctx) (seq : W32) (s : State) : Res :=
  .next (match s.startCmd x.val seq 2 with
    | none => s
    | some (d, s) =>
      let r := dRegion d
      if !s.owns x.val r || (s.region r).clearing.isSome then s.complete x.val seq stNotOwner 0
      else
        let s := if dForce d then s.forceRelease r else s
        let s := if (s.region r).task.isNone then (s.region r).clusters.foldl (fun s k => s.dropGang k) s else s
        (s.modRegion r fun g => { g with clearing := some (x.val, seq, s.beat) }).settleAll (s.region r).clusters)

/-- RELEASE_CLEAR (R191): two beats after the release has taken effect the clusters are clear and FREE. -/
def execReleaseClear (r : Rg) (s : State) : Res :=
  .next (let g := s.region r.val
         match g.clearing with
         | none => s
         | some (x, seq, b) =>
           if g.task.isSome || g.load.isSome then s
           else
             let s := g.clusters.foldl (fun s k => (s.dropGang k).clearRows k) (s.reachBeat b)
             let s := s.reachBeat (b + 2#48)
             let s := g.clusters.foldl (fun s k => s.clearCluster k) s
             let s := { s with regions := SMap.del s.regions r.val }
             (((s.settleAll g.clusters).applyPending g.clusters).complete x seq stSuccess 0).tryReserves)

/-! ### Fold switches (R194 to R196, R203) -/

/-- The active fold of cluster `k` changes, with its bubble round (R195). -/
def State.changeFold (s : State) (k f : Nat) : State :=
  let s := s.leaveGang k (s.cl k).activeFold
  let s := s.modCl k fun c => { c with activeFold := f, bubbleEnd := s.clock + 16 }
  (s.count (pgClCtrl k) 51 1).active k

/-- A FOLD_SWITCH takes effect (R195). -/
def State.switchFold (s : State) (k f : Nat) : State :=
  if (s.cl k).activeFold = f ∨ (s.cl k).frozen then s.count (pgClCtrl k) 52 1 else s.changeFold k f

/-- FOLD_SWITCH (R195): cluster `k`'s next posted entry. -/
def execFoldSwitch (k : Cl) (s : State) : Res :=
  .next (match s.takeEntry (pgClCtrl k.val) 1 with
    | none => s
    | some (e, s) => s.switchFold k.val (e.arg.toNat % 8))

/-- The armed entry that comes first, by position. -/
def nextArmed (now : BitVec 48) (es : List ArmedSwitch) : Option (Nat × ArmedSwitch) :=
  es.zipIdx.foldl (fun best p => match best with
    | none => some (p.2, p.1)
    | some (i, e) => if beatKey now p.1.beat < beatKey now e.beat then some (p.2, p.1) else some (i, e)) none

/-- The armed entries after an execution (R63, R196). -/
def afterArmed (es : List ArmedSwitch) (i : Nat) (e : ArmedSwitch) : List ArmedSwitch :=
  if e.period = 0 ∨ e.left = 0 then listDrop es i
  else listSet es i { e with beat := e.beat + BitVec.ofNat 48 e.period, left := e.left - 1 }

/-- SCHEDULE_ENTRY (R196): cluster `k`'s next armed entry. -/
def execScheduleEntry (k : Cl) (s : State) : Res :=
  .next (match nextArmed s.beat (s.cl k.val).armed with
    | none => s
    | some (i, e) =>
      if !s.inOrder e.beat armedRank then s
      else
        let s := s.reachBeat e.beat
        (s.modCl k.val fun c => { c with armed := afterArmed c.armed i e }).switchFold k.val e.fold)

/-! ### LOAD_SECTION (R201 to R206) -/

/-- LOAD_SECTION (R201, R374, R487). -/
def execLoadSection (x : Ctx) (seq : W32) (s : State) : Res :=
  .next (match s.startCmd x.val seq 3 with
    | none => s
    | some (d, s) =>
      let r := dRegion d
      let g := s.region r
      let purge := dMode d == 1
      let cb := BitVec.ofNat 48 (field d 207 160)
      let ahead := (cb - s.beat).toNat
      let refuse := fun (s : State) st => s.completeFault x.val seq { status := st }
      if !s.owns x.val r then refuse s stNotOwner
      else if cb ≠ 0 ∧ 65536 < ahead ∧ ahead < 2 ^ 47 then refuse s stBadCommand
      else if g.clusters.any s.retirePending then refuse s stClusterBusy
      else if !(g.state == .reserved || g.state == .loaded || (purge && g.state == .faulted)) then refuse s stIllegal
      else
        let beats := field d 143 128
        let l : Load :=
          { ctx := x.val, seq := seq, image := dImage d, purge := purge, drainBeats := if beats = 0 then 65536 else beats,
            commitBeat := cb, accepted := s.beat, before := g.state }
        (s.loseRows g.clusters).modRegion r fun g => { g with load := some l })

/-- LOAD_DRAIN_START (R202): the boundary of beat L0 = A + 2. -/
def execLoadDrainStart (r : Rg) (s : State) : Res :=
  .next (let g := s.region r.val
         match g.load with
         | none => s
         | some l =>
           if l.started then s
           else
             let s := s.reachBeat (l.accepted + 2#48)
             let s := s.modCls g.clusters fun c => { c with loadPhase := 1, stopped := false }
             (s.modRegion r.val fun g => { g with state := .draining, load := some { l with started := true } }).settleAll g.clusters)

/-- The load of a region that drains: started, not closed, by drain. -/
def Region.drainLoad (g : Region) : Option Load :=
  g.load.filter fun l => l.started && l.closedAt.isNone && !l.purge

/-- Whether some queue of the cluster holds a token of fold `f`. -/
def ClusterState.hasTokens (c : ClusterState) (f : Nat) : Bool :=
  c.cores.any fun n => n.2.queues.any fun q => q.2.any fun e => e.tok.fold.toNat == f

/-- DRAIN_FOLD_MOVE (R203): at a beat boundary, to the next fold with a token waiting. -/
def execDrainFoldMove (k : Cl) (s : State) : Res :=
  .next (let k := k.val
         match s.regionOf? k with
         | none => s
         | some (_, g) =>
           if g.drainLoad.isNone then s
           else
             let t := s.reachBoundary 4096
             let c := t.cl k
             if c.firedBeat = t.beats ∨ t.clock < c.bubbleEnd ∨ c.frozen then s
             else match firstSome c.hasTokens ((upto 7).map fun i => (c.activeFold + 1 + i) % 8) with
               | none => s
               | some f => t.changeFold k f)

/-- Tokens in queues, slack paths, launch buffers and due emissions of a core (R203, R204). -/
def CoreState.outside (c : CoreState) : Nat :=
  c.slack.foldl (fun n p => n + p.2.tokens) 0 + c.launch.foldl (fun n p => n + p.2.length) 0 + c.emissions.length

/-- Tokens in the queues of a core. -/
def CoreState.queued (c : CoreState) : Nat := c.queues.foldl (fun n q => n + q.2.length) 0

/-- Tokens that a cluster holds. -/
def ClusterState.holds (c : ClusterState) : Nat := c.cores.foldl (fun n p => n + p.2.queued + p.2.outside) 0

/-- Tokens on links between switchboxes of the clusters. -/
def State.onLinks (s : State) (ks : List Nat) : Nat :=
  (s.flights.filter fun x => decide (x.dest < 327680) && ks.contains (x.dest / 1024)
    && (s.acrossCluster (x.dest / 1024) (x.dest % 1024) x.dir).any ks.contains).length

/-- Items 1, 2, 3 (without the links) and 4 of the drain condition (R203). -/
def ClusterState.isDrained (c : ClusterState) : Bool :=
  c.holds == 0 && c.cores.all (fun n => n.2.landing.all fun l => !l.tok.ctrl)
    && c.gang.folds.all (fun g => !g.2.isOpen) && c.gang.drain.isNone && c.gang.run.isNone
    && c.gang.doneDue.isEmpty
    && c.fillCopy.isEmpty && c.awl.queue.isEmpty && c.stream.queue.isEmpty && c.stream.slots.all (fun x => x.2.desc.isNone)
    && c.fes.all fun f => f.2.queue.isEmpty && f.2.running.isEmpty

/-- The drain condition (R203). -/
def State.isDrained (s : State) (ks : List Nat) : Bool :=
  ks.all (fun k => (s.cl k).isDrained) && s.onLinks ks == 0

/-- DRAIN_TIMEOUT (R203): the boundary L0 + DRAIN_BEATS. -/
def execDrainTimeout (r : Rg) (s : State) : Res :=
  .next (let g := s.region r.val
         match g.drainLoad with
         | none => s
         | some l =>
           let t := s.reachBeat (l.accepted + BitVec.ofNat 48 (2 + l.drainBeats))
           if t.isDrained g.clusters then s
           else
             let first := (firstSome (fun k => (t.cl k).holds != 0) g.clusters).getD 0
             let n := g.clusters.foldl (fun n k => n + (t.cl k).holds) (t.onLinks g.clusters)
             (t.count pgRegionMgr 1 1).endLoad r.val { status := stDrainTimeout, count := n, cluster := first })

/-- A core whose slack paths, launch buffers and due emissions are emptied. -/
def CoreState.emptied (c : CoreState) : CoreState := { c with slack := [], launch := [], emissions := [] }

/-- Every pair of a cluster closes, and its other tokens are discarded (R204). -/
def State.closeCluster (s : State) (k : Nat) : State :=
  let c := s.cl k
  let out := c.cores.foldl (fun n p => n + p.2.outside) 0
  let s := (s.count (pgClCtrl k) 53 out).modCl k fun c =>
    { c with purged := c.holds, cores := SMap.mapAll c.cores (·.emptied) }
  let s := c.cores.foldl (fun s p =>
    (upto 64).foldl (fun s i => s.closePair k p.1 (i / 8) (i % 8) 2) s) s
  ((s.unpost [k] fun e => e.action == 1 || e.action == 3).dropGang k).modCl k fun c =>
    { c with armed := [], isClosed := true, loadPhase := 2, frozen := false }

/-- REGION_CLOSE (R203, R204): the boundary Ld: the first at which the condition holds, or L0 for a purge. -/
def execRegionClose (r : Rg) (s : State) : Res :=
  .next (let g := s.region r.val
         match g.load with
         | none => s
         | some l =>
           if !l.started || l.closedAt.isSome then s
           else
             let t := s.reachBoundary 4096
             if !l.purge && !t.isDrained g.clusters then s
             else
               let t := g.clusters.foldl (fun s k => s.closeCluster k) t
               t.modRegion r.val fun g => { g with load := some { l with closedAt := some t.beat } })

/-! ### Staging (R197 to R200, R206, R298) -/

/-- A failed staging: counter, status of R372 and what the record names. -/
structure StageFail where
  counter : Nat
  ending : Ending
deriving DecidableEq, Repr

/-- What staging has read. -/
structure Staged where
  s : State
  fail : Option StageFail := none
  rows : List Nat := []

/-- Rows `first` to `first + n - 1` of an image, for a cluster; a fault or a poisoned row is IMAGE_FAULT (R206, R298). -/
def State.imageRows (s : State) (x image cluster first n : Nat) : Staged :=
  let f := s.fetchBytes x 0 (image + 512 * first) (512 * n)
  let bad := fun row => some (⟨3, { status := stImageFault, value := row, cluster := cluster }⟩ : StageFail)
  if f.status ≠ 0 then { s := f.s, fail := bad ((f.fault - image) / 512) }
  else match firstSome (fun b => b.1.2) f.bytes.zipIdx with
    | some b => { s := f.s, fail := bad (first + b.2 / 512) }
    | none => { s := f.s, rows := (upto n).map fun i => ofBytes (((f.bytes.drop (512 * i)).take 512).map (·.1)) }

/-- A refusal of R200: header or directory, or a check of a block, at an image row. -/
def refusedAt (row : Nat) (f : SectionFault) : StageFail :=
  ⟨2, { status := stConfigInvalid, code := f.code, value := row, slot := f.slot, row := f.core / 32, col := f.core % 32,
        cluster := f.cluster }⟩

/-- Directory entry `n` of the directory's rows. -/
def dirEntry (rows : List Nat) (n : Nat) : Nat := field (rows.getD (n / 32) 0) (128 * (n % 32) + 127) (128 * (n % 32))

/-- What the blocks' staging has gathered. -/
structure StagedBlocks where
  s : State
  fail : Option StageFail := none
  blocks : List (Block_ × Nat) := []

/-- The stream unit's counters for the fetch of `n` bytes at `a`, one request for each 2 KiB block (R276, R295, R298). -/
def State.countStage (s : State) (k a n : Nat) (fault : Bool) : State :=
  let s := s.count (pgStream k) 0 ((a % 2048 + n + 2047) / 2048)
  if fault then (s.count (pgStream k) 5 1).pulse (pgStream k) 2 else s.count (pgStream k) 1 n

/-- Every cluster stages its block, each with the image row it starts at. -/
def State.stageBlocks (s : State) (x image : Nat) (dir : List Nat) : List (Nat × Nat) → StagedBlocks
  | [] => { s := s }
  | (k, n) :: ks =>
    let e := dirEntry dir n
    let first := field e 31 0
    let r := s.imageRows x image k first (blockRows (bitAt e 32))
    let rs := r.s.countStage k (image + 512 * first) (512 * blockRows (bitAt e 32)) r.fail.isSome
    match r.fail with
    | some f => { s := rs, fail := some f }
    | none =>
      let rest := State.stageBlocks rs x image dir ks
      { rest with blocks := (⟨k, r.rows, bitAt e 32, field e 35 33⟩, first) :: rest.blocks }

/-- The staging of a section: header, directory, blocks, and every check of R200. -/
def State.stageSection (s : State) (x image : Nat) (ks : List Nat) : StagedBlocks × Nat :=
  let n := ks.length
  let h := s.imageRows x image (ks.headD 0) 0 1
  let w := h.rows.headD 0
  match h.fail with
  | some f => ({ s := h.s, fail := some f }, 0)
  | none =>
    let bad := fun row k => some (refusedAt row ⟨2, k, 0, 0, 0⟩)
    if !sectionHeaderOk w n then ({ s := h.s, fail := bad 0 (ks.headD 0) }, 0)
    else
      let d := h.s.imageRows x image (ks.headD 0) 1 (dirRows n)
      match d.fail with
      | some f => ({ s := d.s, fail := some f }, 0)
      | none =>
        match firstSome (fun p => !dirEntryOk (dirEntry d.rows p.2) (field w 127 96) n) ks.zipIdx with
        | some p => ({ s := d.s, fail := bad (1 + p.2 / 32) p.1 }, 0)
        | none =>
          let b := d.s.stageBlocks x image d.rows ks.zipIdx
          match b.fail with
          | some _ => (b, 0)
          | none => match b.s.sectionFault (b.blocks.map (·.1)) with
            | some f =>
              let first := ((firstSome (fun p => p.1.k == f.cluster) b.blocks).map (·.2)).getD 0
              ({ b with fail := some (refusedAt (first + f.row) f) }, 0)
            | none => (b, field w 71 64)

/-- A staged block in its cluster's row memory, with what the commit will need of the directory and the header. -/
def ClusterState.stage (c : ClusterState) (b : Block_) (quiet : Nat) : ClusterState :=
  { c with
    rows := b.rows.zipIdx.foldl (fun m r => SMap.put m r.2 { data := BitVec.ofNat 4096 r.1 }) c.rows,
    loadPhase := 3, nextStore := b.hasStore, nextInitFold := b.initFold, nextQuiet := quiet }

/-- SECTION_STAGING (R206, R298). -/
def execSectionStaging (r : Rg) (s : State) : Res :=
  .next (let g := s.region r.val
         match g.load with
         | none => s
         | some l =>
           if l.closedAt.isNone || l.staged then s
           else
             let (b, quiet) := s.stageSection l.ctx l.image g.clusters
             match b.fail with
             | some f => (b.s.count pgRegionMgr f.counter 1).nextBeat.endLoad r.val f.ending
             | none =>
               let s := b.blocks.foldl (fun s p => (s.modCl p.1.k (·.stage p.1 quiet)).traffic p.1.k 5 0 p.1.rows.length true) b.s
               s.modRegion r.val fun g => { g with load := some { l with staged := true } })

/-! ### The configuration write and the commit (R207, R208) -/

/-- The core stores that a block carries, from row memory (R199). -/
def ClusterState.storeRows (c : ClusterState) (k n : Nat) : SMap StoreEntry :=
  (upto 128).foldl (fun m e =>
    let row := (c.row k (1026 + 4 * n + e / 32)).data.toNat
    SMap.put m e { bits := BitVec.ofNat 128 (field row (128 * (e % 32) + 127) (128 * (e % 32))) }) []

/-- Block rows written: configuration rows held for the commit, core stores at once. -/
def ClusterState.configWrite (c : ClusterState) (k : Nat) : ClusterState :=
  let c' := { c with next := (upto 1026).foldl (fun m r => SMap.put m r (c.row k r)) [], loadPhase := 4 }
  if c.nextStore then
    (upto 1024).foldl (fun d n => d.modCore n fun x => { x with store := c.storeRows k n, storeFree := none }) c'
  else c'

/-- Bc: two beats after beat `b`, or the requested beat when that is later (R208). -/
def commitAt (b req : BitVec 48) : BitVec 48 :=
  let e := b + 2#48
  if req ≠ 0 ∧ (req - e).toNat < 2 ^ 47 then req else e

/-- CONFIG_LOAD_WRITE (R207, R208): the write from the boundary on, and the posting of REGION_COMMIT when its last row has landed. -/
def execConfigLoadWrite (r : Rg) (s : State) : Res :=
  .next (let g := s.region r.val
         match g.load with
         | none => s
         | some l =>
           if !l.staged || l.commit.isSome then s
           else
             let s := s.reachBoundary 4096
             let s := g.clusters.foldl (fun s k =>
               let s := s.traffic k 2 0 1026 false
               (if (s.cl k).nextStore then s.traffic k 3 1026 4096 false else s).modCl k (·.configWrite k)) s
             let s := s.advance (if g.clusters.any fun k => (s.cl k).nextStore then 4099 else 1029)
             let bc := commitAt s.beat l.commitBeat
             let s := g.clusters.foldl (fun s k =>
               s.setCal (pgClCtrl k) (s.cal (pgClCtrl k) ++ [⟨2, 0, 0, 0, bc⟩])) s
             s.modRegion r.val fun g => { g with load := some { l with commit := some bc } })

/-- Row `m` of the block to be committed. -/
def ClusterState.nextRow (c : ClusterState) (m : Nat) : Nat := (SMap.getD c.next m {}).data.toNat

/-- Core `n` with its new words, in cycle `t`; what the old section left in a launch buffer is gone. -/
def ClusterState.newCore (c : ClusterState) (n t free : Nat) : CoreState :=
  let x := c.core n
  let w := c.nextRow (2 + n)
  let words := (upto 8).filterMap fun f =>
    let v := field w (512 * f + 511) (512 * f)
    if v = 0 then none else some (f, BitVec.ofNat 512 v)
  let x := { x with slots := words, launch := [] }
  (if c.nextStore then x else { x with store := [], storeFree := some (free + n) }).startReset t

/-- The new section made current in a cluster (R104, R171, R208, R265): `free` is the first of its 1,040 free indices. -/
def ClusterState.commit (c : ClusterState) (clock free : Nat) : ClusterState :=
  let cores := (upto 1024).foldl (fun m n =>
    if (SMap.get? m n).isSome || c.nextRow (2 + n) != 0 then SMap.put m n (c.newCore n clock free) else m) c.cores
  let nums := fun row width => (upto (4096 / width)).map fun i => field row (width * i + width - 1) (width * i)
  { (c.freeTiles (free + 1024)) with
    gang := {}
    cores := cores
    gangDesc := ((nums (c.nextRow 0) 512).zipIdx.filter fun p => p.1 != 0).map fun p => (p.2, BitVec.ofNat 512 p.1)
    schedule := (nums (c.nextRow 1) 128).map (BitVec.ofNat 128 ·)
    initFold := c.nextInitFold, activeFold := 0, bubbleEnd := clock + 16, next := [], loadPhase := 0, isClosed := false }

/-- The arbiter's settings at their reset values, for its decisions from here on (R223). -/
def State.resetArbiter (s : State) (k : Nat) : State :=
  (s.settleArb k).modPage (pgArbiter k) fun g => { g with regs := g.regs.filter fun p => !(p.1 == 0x40 || p.1 == 0x44 || decide (0x80 ≤ p.1 ∧ p.1 < 0xBC)) }

/-- One cluster at the commit. -/
def State.commitCluster (s : State) (k : Nat) : State :=
  let quiet := (s.cl k).nextQuiet
  let r := s.freshN 1040
  let s := r.2
  let n := pgClCtrl k
  let s := ((s.dropGang k).modCl k (·.commit s.clock r.1)).setReg n 0x31C (setField (s.regOf n 0x31C) 15 8 quiet)
  (s.resetArbiter k).active k

/-- REGION_COMMIT (R208): the commit beat of the region's load. -/
def execRegionCommit (r : Rg) (s : State) : Res :=
  .next (let g := s.region r.val
         match g.load with
         | none => s
         | some l => match l.commit with
           | none => s
           | some b =>
             if !s.inOrder b (actionRank 2) then s
             else
               let s := (s.reachBeat b).unpost g.clusters fun e => e.action == 2 && e.beat == b
               let s := (g.clusters.foldl (fun s k => s.commitCluster k) s).seamGrants g.clusters
               let lost := g.clusters.foldl (fun n k => n + (s.cl k).purged) 0
               let s := s.modRegion r.val fun g => { g with state := .loaded, lastCommit := b, load := none }
               ((s.settleAll g.clusters).count pgRegionMgr 0 1).complete l.ctx l.seq stSuccess (b.toNat + (lost % 2 ^ 32) <<< 96))

end Sys2Proof.Machine
end

