-- ==== Sys2Proof/Machine/Islands.lean ====
section
/-! DEFINITION. Reset islands (R70, R71, R210, R377): which pages and state an island holds, and its reset. -/
namespace Sys2Proof.Machine

/-- The die of a page in a range of dies. -/
def pageDie (n base : Nat) : Nat := (n - base) / 0x100

/-- Whether a page lies in an island (R70; log 28 for the pages whose island the table does not name). -/
def inIsland (i : Island) (n : Nat) : Bool :=
  match pageBlock n with
  | none => false
  | some b =>
    match i with
    | .time => b == .mtime
    | .junction => b == .module || b == .bridle
    | .management m => m.val == 0 && (b == .mgmt || b == .flash || b == .attest || b == .custody || b == .thermal)
    | .cxl => b == .cxlAdapter
    | .control => b == .barDecode || b == .irqc || b == .regionMgr || b == .cinch || b == .context || b == .dispatch
    | .cluster k => decide (0x4000 ≤ n) && (n - 0x4000) / 0x40 == k.val && b != .router
    | .mesh d => (decide (0x3000 ≤ n ∧ n < 0x4000) && pageDie n 0x3000 == d.val)
        || (decide (0x4000 ≤ n) && b == .router && (n - 0x4000) / 0x40 / 40 == d.val)
    | .memorySide d => decide (0x1000 ≤ n ∧ n < 0x2000) && pageDie n 0x1000 == d.val
    | .ioData d => (b == .ioDie || b == .lpddrCtrl || b == .router) && decide (0x2000 ≤ n ∧ n < 0x3000) && pageDie n 0x2000 == d.val
    | .trunk t => n == pgTrunk t.val

/-- Page `n` after its island's reset: registers at their reset values, MGMT_TARGETS that of R31; lock groups stay, and so do the
conditions that hold outside the page, with the latches that they drive (R42). -/
def Page.afterReset (n : Nat) (g : Page) : Page :=
  { control := if isMgmtPage n then 0x02000000#32 else 0, level := g.level, latch := g.level, lock := g.lock, mirror := g.mirror,
    inReset := g.inReset }

/-- The pages for which `p` holds are reset, with the meters that count in them. -/
def State.resetPages (s : State) (p : Nat → Bool) : State :=
  { s with pages := s.pages.map fun g => if p g.1 then (g.1, g.2.afterReset g.1) else g
           irq := { s.irq with sources := s.irq.sources.map fun x => if p x.1 then (x.1, { x.2 with offer := none }) else x }
           energy := s.energy.map fun e => if p (e.1 / 256) then (e.1, 0) else e
           cals := s.cals.filter fun c => !p c.1 }

/-- Pages held in reset, or released. -/
def State.holdPages (s : State) (ns : List Nat) (held : Bool) : State :=
  ns.foldl (fun s n => s.modPage n fun g => { g with inReset := held }) s

/-- The control plane's pages, in reset until boot release (R20, R33, R70). -/
def controlPages : List Nat :=
  [pgBarDecode, pgIrqc, pgRegionMgr, pgCinch 0, pgCinch 1] ++ (upto 64).map pgContext ++ (upto 16).map pgDispatch

/-- The management plane's pages on management core 0's island. -/
def mgmtPages : List Nat := [pgMgmt, pgFlash, pgAttest, pgCustody, pgThermal]

/-- Self-tests and what ST_STATUS reports are given up (R496). -/
def State.dropTests (s : State) : State :=
  let s := s.modCls (s.tests.running.map (·.1)) fun c => { c with selfTest := false }
  { s with tests := {} }

/-- Management core 0's island is reset (R456, R464, R505): its private memory is cleared, and the ROM verifies the running slot. -/
def State.resetMgmt0 (s : State) : State :=
  let s := s.dropTests.resetPages (inIsland (.management 0))
  ((((s.modIdent (·.resume)).showAk).warned s.ident).modCustody fun c => { c with window := 0 }).modBoot fun b =>
    { b with mgmt0Reset := true, reverify := true, mgmt0Halted := false }

/-- The CXL island (R358, R455): link down, host bias everywhere, translations dropped, vectors masked. -/
def State.resetCxl (s : State) : State :=
  let s := s.resetPages (inIsland .cxl)
  ({ s with host := { s.host with xlt := [], masked := List.range 65, msixPending := [], deviceBias := [], biasChange := none } }).modBoot
    fun b => { b with linkUp := false, configReady := false, viral := false }

/-- Every region FREE, its clusters cleared; tasks and bookings are gone (R377). -/
def State.freeRegions (s : State) : State :=
  let ks := s.regions.flatMap fun r => r.2.clusters
  let s := ks.foldl (fun s k => s.clearCluster k) s
  let s := ({ s with regions := [] }).modBridle fun b => { b with bookings := [], request := none }
  (s.dropForecast.settleAll ks).applyPending ks

/-- What the control island holds beside regions and commands: cinches zero, the interrupt controller and wake queues empty. -/
def State.resetControlUnits (s : State) : State :=
  let s := s.resetPages (inIsland .control)
  { s with host := { s.host with xlt := [] }, irq := {}, cinch := [], wakes := [] }

/-- The control island with the islands of PERST# or a module reset: contexts disabled with no records, regions FREE (R377). -/
def State.resetControl (s : State) : State :=
  let s := s.freeRegions.resetControlUnits
  { s with host := { s.host with contexts := [], reserving := [] } }

/-- The control island alone: tasks that have started run to their end, the Bridle keeps its state, and the records of commands in
progress wait for a dispatch core (R24). -/
def State.resetControlAlone (s : State) : State :=
  let s := s.resetControlUnits
  let f := fun (c : Context) => { c with sqHead := 0, cqTail := 0, phase := true, armed := false, fullSince := none, probing := none }
  { s with host := { s.host with contexts := SMap.mapAll s.host.contexts f } }

/-- What a cluster keeps over a reset of its island: power, skips and retirements. Contents of its row memory and core stores are
not stated: free values (log 7, 8). -/
def ClusterState.afterReset (c : ClusterState) (free : Nat) : ClusterState :=
  { power := c.power, ranBeat := c.ranBeat, raised := c.raised, raiseDue := c.raiseDue, skipRow := c.skipRow,
    coreRetired := c.coreRetired, retired := c.retired, selfTest := c.selfTest, rowsFree := some free,
    cores := (upto 1024).map fun n => (n, { storeFree := some (free + 1 + n) }) }

/-- Cluster `k`'s island without its region (R210). -/
def State.resetClusterState (s : State) (k : Nat) : State :=
  let r := s.freshN 1025
  ((r.2.modCl k (·.afterReset r.1)).resetPages (inIsland (.cluster ⟨k % 320, Nat.mod_lt k (by decide)⟩)))

/-- The region of a cluster whose island was reset (R377): FAULTED; its task ends UNCONTAINED, its load is given up. -/
def State.resetRegionOf (s : State) (k : Nat) : State :=
  match s.regionOf? k with
  | none => s
  | some (r, g) =>
    let s := if g.load.isSome then s.endLoad r { status := stAborted, cluster := k } else s
    if g.task.any (·.started) then (s.endTask k { status := 0xC }).markFault k
    else s.modRegion r fun g => { g with state := .faulted }

/-- The mesh island of compute die `d`: packets in its routers are lost. -/
def State.resetMesh (s : State) (d : Nat) : State :=
  let s := s.keepProbes.resetPages (inIsland (.mesh ⟨d % 8, Nat.mod_lt d (by decide)⟩))
  { s with mesh := { s.mesh with routers := s.mesh.routers.filter fun r => !(decide (r.1 < 320) && dieOf r.1 == d) }
           ready := { s.ready with cd := s.ready.cd.filter (· != d) } }

/-- Dirty sectors of a reuse-cache line: home addresses of their bytes. -/
def CacheLine.lost (c : CacheLine) : List Nat :=
  (upto 512).filterMap fun i => if c.dirty.getLsbD (i / 64) then some (homeOf c.stack (512 * c.line) + i) else none

/-- The memory-side island of die `d` (R70, R377): the stacks keep their contents, but for lines not yet written back, whose data
is lost (log 18); granule entries are zero. -/
def State.resetMemorySide (s : State) (d : Nat) : State :=
  let f := s.fresh
  let lost := (SMap.getD s.mem.cache d []).flatMap (·.lost)
  let bytes := lost.foldl (fun m a => memWrite m a (Config.freeLost f.1 a)) s.mem.bytes
  let s := f.2.resetPages (inIsland (.memorySide ⟨d % 8, Nat.mod_lt d (by decide)⟩))
  let keep := fun (x : Nat × Nat) => x.1 / 4 != d
  { s with mem := { s.mem with bytes := bytes, cache := SMap.del s.mem.cache d, probing := s.mem.probing.filter (· != d),
                               granules := s.mem.granules.filter fun g => !(decide (g.1 < 524288) && g.1 / 55296 == d),
                               scrubPos := s.mem.scrubPos.filter keep, scrubbed := s.mem.scrubbed.filter keep,
                               audited := s.mem.audited.filter keep }
           ready := { s.ready with msd := s.ready.msd.filter (· != d) } }

/-- The data island of I/O die `d`: LPDDR5X keeps its contents; its granule entries are zero, the hub's packets are lost. -/
def State.resetIoData (s : State) (d : Nat) : State :=
  let s := s.resetPages (inIsland (.ioData ⟨d % 2, Nat.mod_lt d (by decide)⟩))
  { s with mem := { s.mem with granules := s.mem.granules.filter fun g => !(decide (524288 ≤ g.1) && (g.1 - 524288) / 262144 == d) }
           mesh := { s.mesh with routers := SMap.del s.mesh.routers (320 + d) }
           ready := { s.ready with lpddr := false } }

/-- Trunk `t`'s island (R70): its links train anew. -/
def State.resetTrunk (s : State) (t : Nat) : State :=
  let s := (upto 8).foldl (fun s n => s.failLink (8 * t + n) .off 0) s
  let s := s.resetPages (inIsland (.trunk ⟨t % 6, Nat.mod_lt t (by decide)⟩))
  (upto 8).foldl (fun s n =>
    s.modLink (8 * t + n) fun x => { mode := .training, retired := x.retired, trainAt := s.mgmtClock }) s

/-! ### Isolation and drain (R71) -/

/-- A transfer that is still open when the drain ends: a read completes with poison, and a write is discarded and recorded against
the task that issued it (R71). -/
def State.abandon (s : State) (p : Packet) : State :=
  let s := s.receive p
  match p.opcode.toNat with
  | 0x01 => s.inject (dataOrError p 0 (List.replicate p.len.toNat ⟨0, true⟩))
  | 0x02 | 0x20 => if epKind p.src = 0 then s.uncontained (epNumber p.src) (pgClCtrl (epNumber p.src)) 0xF1 0 15 else s
  | _ => s

/-- Whether a packet is a request into an island. -/
def isInto (p : Packet) (i : Island) : Bool :=
  let u := epIoUnit p.dest
  (p.opcode == 0x01 || p.opcode == 0x02 || p.opcode == 0x10 || p.opcode == 0x20) &&
  match i with
  | .cluster k => epKind p.dest == 0 && epNumber p.dest == k.val
  | .memorySide d => epKind p.dest == 1 && epDie p.dest == d.val
  | .ioData d => epKind p.dest == 2 && epIoDie p.dest == d.val && decide (13 ≤ u ∧ u ≤ 20)
  | .cxl => epKind p.dest == 2 && epIoDie p.dest == 0 && u == 12
  | _ => false

/-- Packets in the buffers and Stitch stores of the routers for which `p` holds. -/
def State.inRouters (s : State) (p : Nat → Bool) : List Packet :=
  (s.mesh.routers.filter fun r => p r.1).flatMap fun r => r.2.held.map (·.packet) ++ r.2.store.map (·.packet)

/-- The transfers open in an island: requests that have reached it, and packets inside it. -/
def State.openIn (s : State) (i : Island) : List Packet :=
  (s.mesh.delivered.map (·.packet)).filter (isInto · i) ++ match i with
    | .mesh d => s.inRouters fun r => decide (r < 320) && dieOf r == d.val
    | .ioData d => s.inRouters fun r => r == 320 + d.val
    | _ => []

/-- Steps 1 to 3 of R71 before the reset itself takes effect: with transfers open the drain runs its 1,024 cycles of the island's slowest
clock, of `u` fabric cycles, and they are abandoned; reset is held for 64 cycles. -/
def State.drain (s : State) (i : Island) (u : Nat) : State :=
  let open_ := s.openIn i
  let s := s.advance (u * (if open_.isEmpty then 64 else 1088))
  open_.foldl State.abandon s

/-- ISLAND_RESET (R70, R71): isolate, drain, reset, release at a beat boundary, as one step. The time and junction islands are reset
at power-on only, and management core 1's holds no state of the model. -/
def execIslandReset (i : Island) (s : State) : Res :=
  .next (match i with
    | .time => s
    | .junction => s
    | .management m =>
      let s := { s with mgmtClock := s.mgmtClock + 64 }
      if m.val = 0 then s.resetMgmt0 else s
    | .cxl => (s.drain i 2).resetCxl
    | .control => (s.drain i 2).resetControlAlone
    | .cluster k =>
      let free := (s.regionOf? k.val).isNone
      let s := (((s.drain i 1).nextBeat.resetRegionOf k.val).resetClusterState k.val).settlePower k.val
      if free then s.clearCluster k.val else s
    | .mesh d => (s.drain i 1).nextBeat.resetMesh d.val
    | .memorySide d => (s.drain i 2).resetMemorySide d.val
    | .ioData d => (s.drain i 2).resetIoData d.val
    | .trunk t => (s.drain i 1).nextBeat.resetTrunk t.val)

/-- The trunk calendars are emptied and the trunks' circuits stopped (R70). -/
def State.quietTrunks (s : State) : State :=
  let s := (upto 48).foldl (fun s l => s.stopChannels l) s
  (upto 6).foldl (fun s t => s.setCal (pgTrunk t) []) s

/-- What PERST# and a module reset reset together: control, clusters, meshes, memory-side dies, I/O data (R70, R377, R455). The
clusters are cleared as R191 states. -/
def State.resetPlanes (s : State) : State :=
  let s := s.nextBeat.resetControl
  let s := (upto 320).foldl (fun s k => (s.resetClusterState k).clearCluster k) s
  let s := s.modCls (upto 320) fun c => { c with cores := [], selfTest := false }
  let s := (upto 8).foldl (fun s d => (s.resetMesh d).resetMemorySide d) s
  let s := ((s.resetIoData 0).resetIoData 1).quietTrunks
  let s := s.holdPages controlPages true
  let s := (upto 320).foldl (fun s k => s.dropEvent (pgClPower k) 1) s
  { s with flights := [], lanes := [], mesh := {}, tests := { s.tests with running := [] }, ready := { down := s.ready.down } }

end Sys2Proof.Machine
end

