-- ==== Sys2Proof/Machine/Boot.lean ====
section
/-! DEFINITION. Boot (R426, R453 to R461, R488 to R494, R505): power-on, the boot ROM's choice of a slot, I/O enable, boot release,
PERST#, the management cores' watchdog, flash programming, and bring-up. -/
namespace Sys2Proof.Machine

/-! ### POWER_ON (R426, R453, R465, R488, R492, R493) -/

/-- A kind of retirement in the spare map, by location. -/
def Spares.locs (x : Spares) (kind : Nat) : List Nat := x.entries.filterMap fun e => if e.kind = kind then some e.loc else none

/-- A core entry sets its column's skip; a second one in the column retires the cluster (R488). -/
def State.spareCore (s : State) (loc : Nat) : State :=
  let col := field loc 13 9
  s.modCl (field loc 8 0) fun c =>
    if c.coreRetired.any fun p => p.1 == col then { c with retired := true, power := .off }
    else { c with coreRetired := c.coreRetired ++ [(col, field loc 19 14)], skipRow := SMap.put c.skipRow col (field loc 19 14) }

/-- A cluster entry retires its cluster (R488). -/
def State.spareCluster (s : State) (loc : Nat) : State :=
  s.modCl (field loc 8 0) fun c => { c with retired := true, power := .off }

/-- Pseudo-channels that the map retires: kind 4, and every one of a stack of kind 5 (R493). -/
def Spares.retiredChannels (x : Spares) : List Nat :=
  ((x.locs 4).map fun l => 32 * field l 4 0 + field l 9 5) ++ (x.locs 5).flatMap fun l => (upto 32).map fun r => 32 * field l 4 0 + r

/-- The first granule and number of lost granules of die `d`'s home range, for GRN_LOST (R493). -/
def Spares.lostGranules (x : Spares) (d : Nat) : Nat :=
  let hit := (upto 3).filter fun i => !(x.retiredIn (3 * d + i)).isEmpty
  if hit.isEmpty then 0
  else if hit.any fun i => 2 ≤ (x.retiredIn (3 * d + i)).length then 55296
  else 53568 <<< 16 + 1728

/-- The valid spare map is applied (R488, R491, R492, R493, R447). -/
def State.applySpares (s : State) : State :=
  let x := s.spares
  let s := (x.locs 1).foldl (fun s l => s.spareCore l) s
  let s := (x.locs 2).foldl (fun s l => s.spareCluster l) s
  let s := (x.locs 6).foldl (fun s l =>
    s.modLink (field l 5 0) fun y => { y with retired := y.retired ||| BitVec.ofNat 4 (2 ^ field l 7 6) }) s
  let s := { s with spares := { s.spares with channels := x.retiredChannels.eraseDups, packages := x.locs 8 } }
  let es := x.entries.map fun e => if e.kind = 3 then { e with repaired := true } else e
  if es = x.entries then s else s.writeSpares es

/-- The module's state as power comes on: the flash's contents stay, with what is not the module's (host memory, the queue, what
has left it); everything else is at reset. -/
def State.coldStart (s : State) : State :=
  { pending := s.pending, out := s.out, clock := s.clock, beats := s.beats, freeCount := s.freeCount,
    host := { bytes := s.host.bytes },
    boot := { phase := .rom, slotA := s.boot.slotA, slotB := s.boot.slotB, record0 := s.boot.record0, record1 := s.boot.record1,
              perst := s.boot.perst, fprog := s.boot.fprog, boots := s.boot.boots + 1 },
    ident := { s.ident with ok := false },
    custody := { latched := s.custody.latched, log := s.custody.log, acts := s.custody.acts },
    spares := { entries := s.spares.entries, gen := s.spares.gen } }

/-- POWER_ON (R426, R453 steps 1 and 2, R465, R473, R488). Management time counts from power-good: the slot straps' stagger has
passed by then. -/
def execPowerOn (straps : BitVec 14) (pufOk svcClosed sealOk mtref : Bool) (s : State) : Res :=
  .next (if s.boot.phase ≠ .off ∧ s.boot.phase ≠ .quiesced ∧ s.boot.phase ≠ .failed then s
         else
           let s := (s.coldStart.modBoot fun b => { b with straps := straps }).reachMgmt (straps.toNat % 64 * 200000)
           let s := s.modMt fun m => { m with present := mtref, since := s.clock }
           let s := ((s.modIdent fun x => { x.resume with ok := pufOk }).showAk).warned s.ident
           let s := s.sample fun c => { c with strap := svcClosed, sealOpen := !sealOk }
           let s := if sealOk then s else (s.modCustody fun c => { c with sealOpen := false }).openSeal
           s.applySpares.holdPages (controlPages ++ pgCxl :: if s.boot.fprog then mgmtPages else []) true)

/-! ### SLOT_VERIFY (R458 to R460) -/

/-- Boot failure (R460): CFG_FAIL_N is low until power is removed. -/
def State.bootFailure (s : State) : State := s.modBoot fun b => { b with phase := .failed, cfgFail := true }

/-- A slot has passed: it runs. -/
def State.passSlot (s : State) (n : Nat) (fallback trial : Bool) : State :=
  let s := s.modBoot fun b => { b with phase := .passed, runSlot := n, fallback := fallback, trial := trial }
  if fallback then s.pulse pgFlash 1 else s

/-- The preferred slot, then the other (R459, R460). -/
def State.bootPreferred (s : State) : State :=
  let p := s.boot.record.pref
  if s.boot.passes p then s.passSlot p false false
  else if s.boot.passes (1 - p) then s.passSlot (1 - p) true false
  else s.bootFailure

/-- The trial is given up: a record with bit 7 clear, and event 2 (R459, R476). -/
def State.revertTrial (s : State) : State :=
  (s.modBoot fun b => b.write { b.record with trial := false }).pulse pgFlash 2

/-- The ROM's choice at power-on (R459). -/
def State.chooseSlot (s : State) : State :=
  let r := s.boot.record
  if s.boot.current?.isNone then s.bootFailure
  else if !r.trial then s.bootPreferred
  else if r.tries = 0 then s.revertTrial.bootPreferred
  else
    let s := s.modBoot fun b => b.write { r with tries := r.tries - 1 }
    if s.boot.passes r.trialSlot then s.passSlot r.trialSlot false true else s.revertTrial.bootPreferred

/-- SLOT_VERIFY (R458 to R460); after a reset of management core 0 the running slot again (R456). -/
def execSlotVerify (s : State) : Res :=
  .next (if s.boot.fprog then s
         else if s.boot.reverify then
           if s.boot.passes s.boot.runSlot then s.modBoot fun b => { b with reverify := false }
           else (s.modBoot fun b => { b with reverify := false, mgmt0Halted := true }).pulse pgFlash 3
         else if s.boot.phase = .rom then s.chooseSlot else s)

/-! ### I/O enable and boot release (R453 to R455) -/

/-- IO_ENABLE (R453 step 4, R449 step 1, R454): CXL and the enabled links begin to train. -/
def execIoEnable (s : State) : Res :=
  .next (if s.boot.phase ≠ .passed then s
         else
           let s := (s.holdPages [pgCxl] false).modBoot fun b => { b with phase := .ioEnabled, linkUp := !b.perst }
           let s := (upto 48).foldl (fun s l => if s.linkEnabled l then s.startTraining l else s) s
           { s with harness := { s.harness with trainAt := s.mgmtClock } })

/-- CONTROL and LOCK at their release values (R31, R35). -/
def State.releaseValues (s : State) : State :=
  let s := { s with pages := s.pages.map fun g => (g.1, { g.2 with control := g.2.control &&& 0xF9FFFFFF#32 }) }
  let s := (mgmtPages ++ (upto 8).map pgScrub).foldl (fun s n =>
    s.modPage n fun g => { g with control := g.control ||| 0x02000000#32 }) s
  (upto 8).foldl (fun s d => s.modPage (pgCd d) fun g => { g with lock := 1 }) s

/-- BOOT_RELEASE (R20, R31, R35, R385, R426, R453 step 5, R504), which Sorrel performs. After a module reset vector 64 is sent and FATAL_N released. -/
def execBootRelease (s : State) : Res :=
  .next (if s.boot.phase ≠ .ioEnabled ∨ s.boot.perst ∨ s.boot.mgmtStalled then s
         else
           let again := s.boot.resetPending
           let s := (s.holdPages controlPages false).releaseValues
           let s := s.modBoot fun b =>
             { b with phase := .released, configReady := true, resetPending := false, fatalLow := b.fatalLow && !again }
           let s := s.modBridle fun b => { b with announced := 0 }
           let s := s.setReg pgBridle 0x48 (setField (s.regOf pgBridle 0x48) 15 0 1400)
           let s := { s with clusters := SMap.mapAll s.clusters fun c => if c.retired then c else { c with power := .idle } }
           let s := s.pulse pgModule 2
           if again then s.sendMsix 64 else s)

/-- PERST_ASSERT (R455). -/
def execPerstAssert (s : State) : Res :=
  .next (let up := s.boot.phase == .released || s.boot.phase == .ioEnabled
         let s := s.modBoot fun b => { b with perst := true, linkUp := false, configReady := false }
         if up then s.resetPlanes.resetCxl.modBoot fun b => { b with phase := .ioEnabled } else s)

/-- PERST_RELEASE (R454). -/
def execPerstRelease (s : State) : Res :=
  .next (s.modBoot fun b => { b with perst := false, linkUp := b.phase == .ioEnabled || b.phase == .released })

/-! ### Management core 0 (R456, R505) -/

/-- MGMT_WATCHDOG (R456): core `m` resets the other core's island. Core 1's reset changes nothing that the state holds. -/
def execMgmtWatchdog (m : Fin 2) (s : State) : Res :=
  .next (if m.val = 1 ∧ s.boot.sorrelUp then s.resetMgmt0 else s)

/-- FPROG_ASSERT (R505). -/
def execFprogAssert (s : State) : Res :=
  .next (if s.boot.fprog || !s.boot.powered then s.modBoot fun b => { b with fprog := true }
         else
           let s := s.modBoot fun b => { b with fprog := true }
           if s.boot.phase = .rom ∨ s.boot.phase = .passed then (s.modBoot fun b => { b with phase := .rom }).holdPages mgmtPages true
           else if s.boot.phase = .failed then s
           else s.resetMgmt0.holdPages mgmtPages true)

/-- FPROG_RELEASE (R505): management core 0 restarts in the boot ROM. -/
def execFprogRelease (s : State) : Res :=
  .next (if !s.boot.fprog then s else (s.modBoot fun b => { b with fprog := false }).holdPages mgmtPages false)

/-! ### Bring-up (R385, R384, R175, R494) -/

/-- Where a seam's `SEAM` pages lie: (die, edge) for each compute die that it joins, and its added rounds (R490, R174). -/
def seamEnds (n : Nat) : List (Nat × Nat) × Nat :=
  if n < 6 then
    let d := [0, 1, 2, 4, 5, 6].getD n 0
    ([(d, 1), (d + 1, 3)], 3)
  else if n < 10 then ([(n - 6, 2), (n - 2, 2)], 3)
  else ([[(0, 3)], [(4, 3)], [(3, 1)], [(7, 1)]].getD (n - 10) [], 2)

/-- Cluster positions along a seam. -/
def seamPositions (n : Nat) : Nat := if 6 ≤ n ∧ n < 10 then 8 else 5

/-- Whether compute dies `d` has a mesh link that cannot be repaired (R494). -/
def State.keptDown (s : State) (d : Nat) : Bool := s.ready.down.contains d

/-- A bring-up step ends (R384). -/
def State.stepDone (s : State) : State := s.pulse pgModule 2

/-- BRING_UP_STEP (R385, R175, R487, R494). A memory-side or compute die comes up once. -/
def execBringUpStep (b : BringUp) (s : State) : Res :=
  .next (if !s.ctrlReady && s.boot.phase != .ioEnabled then s
         else match b with
           | .memorySide d =>
             if s.ready.msd.contains d.val then s
             else ({ s with ready := { s.ready with msd := s.ready.msd ++ [d.val] } }).stepDone
           | .compute d =>
             if s.ready.cd.contains d.val || s.keptDown d.val then s
             else ({ s with ready := { s.ready with cd := s.ready.cd ++ [d.val] } }).stepDone.liveChanged
           | .lpddr =>
             if s.ready.lpddr || !s.spares.packages.isEmpty then s
             else ({ s with ready := { s.ready with lpddr := true } }).stepDone
           | .seam n posOk meshOk =>
             let (ends, rounds) := seamEnds n.val
             let ok := posOk.toNat % 2 ^ seamPositions n.val
             let s := ends.foldl (fun s e => s.setReg (pgSeam e.1 e.2) 0x40 (rounds <<< 8 + ok)) s
             let bad := ok != 2 ^ seamPositions n.val - 1 || !meshOk
             let down := if meshOk then [] else ends.map (·.1)
             let cds := s.ready.cd.filter fun d => !down.contains d
             let t := ({ s with ready := { s.ready with
               seamDegraded := s.ready.seamDegraded || bad, down := s.ready.down ++ down, cd := cds } }).stepDone
             if cds = s.ready.cd then t else t.liveChanged)

end Sys2Proof.Machine
end

