-- ==== Sys2Proof/Machine/FeTiles.lean ====
section
/-! DEFINITION. The fields of an FE descriptor (R250 to R253), and what its tiles make it wait for (R265, R270). -/
namespace Sys2Proof.Machine

/-! ### Fields of a descriptor, a number of 2,048 bits -/

def feWaitCount (w : Nat) : Nat := field w 255 224
def feWaitHandle (w : Nat) : Nat := field w 198 193
def feWaitEn (w : Nat) : Bool := bitAt w 192
def feSeed (w : Nat) : Nat := field w 191 160
def feMix (w : Nat) : Bool := bitAt w 129
def feSat (w : Nat) : Bool := bitAt w 128
def feRound (w : Nat) : Nat := field w 127 126
def feAbt (w : Nat) : Nat := field w 125 121
def feEvt (w : Nat) : Nat := field w 120 116
def feMask (w : Nat) : Nat := field w 115 112
def feRelY (w : Nat) : Bool := bitAt w 108
def feRelX (w : Nat) : Bool := bitAt w 107
def feArrive (w : Nat) : Bool := bitAt w 106
def feMerge (w : Nat) : Bool := bitAt w 105
def feKeep (w : Nat) : Bool := bitAt w 104
def feStages (w : Nat) : Nat := field w 103 100
def feN (w d : Nat) : Nat := field w (20 * d + 19) (20 * d)
/-- Specifier 0 X, 1 Y, 2 D (R251). -/
def feSpec (w t : Nat) : Nat := field w (512 + 160 * t + 159) (512 + 160 * t)
/-- Stage `i`: parts 2 and 3 follow each other (R253). -/
def feStage (w i : Nat) : Nat := field w (1024 + 64 * i + 63) (1024 + 64 * i)
def feConst (w c : Nat) : Nat := field w (1536 + 256 + 32 * c + 31) (1536 + 256 + 32 * c)

def spS4 (p : Nat) : Nat := field p 158 135
def spS3 (p : Nat) : Nat := field p 134 111
def spS2 (p : Nat) : Nat := field p 110 87
def spS1 (p : Nat) : Nat := field p 86 63
def spS0c (p : Nat) : Nat := field p 62 39
def spOffset (p : Nat) : Nat := field p 38 17
def spC0 (p : Nat) : Nat := field p 16 13
def spBc0 (p : Nat) : Bool := bitAt p 12
def spFmt (p : Nat) : Nat := field p 11 8
def spHandle (p : Nat) : Nat := field p 7 2
def spTile (p : Nat) : Nat := field p 3 2
def spKind (p : Nat) : Nat := field p 1 0

def stType (x : Nat) : Nat := field x 63 60
def stOp (x : Nat) : Nat := field x 59 56
def stBSrc (x : Nat) : Nat := field x 55 54
def stBK (x : Nat) : Nat := field x 53 51
def stCSrc (x : Nat) : Nat := field x 50 49
def stCK (x : Nat) : Nat := field x 48 46
def stRdims (x : Nat) : Nat := field x 45 43

/-- Bits per element of a specifier. -/
def spBits (p : Nat) : Nat := ((fmtOfCode (spFmt p)).map fmtBits).getD 8

/-! ### Tiles (R265) -/

/-- State of tile `t` of FE `u`. -/
def ClusterState.tileState (c : ClusterState) (u t : Nat) : TileState := (SMap.getD (SMap.getD c.fes u {}).tiles t {}).state

/-- A gang drain waits for the tile (R265: it takes the tile first). -/
def ClusterState.drainWants (c : ClusterState) (u t : Nat) : Bool :=
  match c.gang.drain with
  | some (f, b, _) => gdDrainMode (c.gd f) == 0 && gdDrainFe (c.gd f) == u && gdTile (c.gd f) b == t
  | none => false

/-- Whether every tile that a descriptor names meets its wait. -/
def ClusterState.tilesMet (c : ClusterState) (u w : Nat) : Bool :=
  let d := feSpec w 2
  let reads := fun p => spKind p != 2 || c.tileState u (spTile p) == .ready
  let same := fun p => spKind p == 2 && spTile p == spTile d && p == d
  reads (feSpec w 0) && reads (feSpec w 1)
    && (spKind d != 2 || same (feSpec w 0) || same (feSpec w 1)
        || (c.tileState u (spTile d) == .free && !c.drainWants u (spTile d)))

/-- The tiles that a descriptor names, and the cycle since which all of them are in their present states. -/
def ClusterState.tilesSince (c : ClusterState) (u w : Nat) : Nat :=
  let since := fun p => if spKind p = 2 then (SMap.getD (SMap.getD c.fes u {}).tiles (spTile p) {}).since else 0
  max (since (feSpec w 0)) (max (since (feSpec w 1)) (since (feSpec w 2)))

/-- Cycles for which the head descriptor of FE `u` has waited on a tile (counter 6 of R270), not yet counted. -/
def State.tileWait (s : State) (k u : Nat) : Nat :=
  let c := s.cl k
  let f := SMap.getD c.fes u {}
  match f.queue with
  | [] => 0
  | d :: _ => (if c.tilesMet u d.bits.toNat then min s.clock (c.tilesSince u d.bits.toNat) else s.clock) - f.headAt

/-- The tile waits of the head descriptors counted, before their queues empty. -/
def State.countTileWaits (s : State) (k : Nat) : State :=
  (upto 4).foldl (fun s u => s.count (pgFe k u) 6 (s.tileWait k u)) s

end Sys2Proof.Machine
end

