-- ==== Sys2Proof/Machine/Tables.lean ====
section
/-! DEFINITION. The accuracy of the TABLE stage (R258): the exact value of each function, in fixed point far finer than FP32, and
whether a result lies within the bound that the manual gives. The values between the bounds are free (log 11). -/
namespace Sys2Proof.Machine

/-- Fraction bits of the fixed-point values. -/
def fxBits : Nat := 256

/-- One, and a quotient of small integers. -/
def fxOne : Int := 2 ^ fxBits
def fxQuot (a b : Int) : Int := a * fxOne / b

/-- Product of two fixed-point values. -/
def fxMul (a b : Int) : Int := a * b / fxOne

/-- A finite FP32 value in fixed point. -/
def fxOf (neg : Bool) (m : Nat) (e : Int) : Int :=
  let v : Int := m * 2 ^ (e + fxBits).toNat
  if neg then -v else v

/-- A fixed-point value. -/
def fxVal (v : Int) : Val := .num (decide (v < 0)) v.natAbs (-(fxBits : Int))

/-- Σ of the exponential series from term number `n`, whose value is `t`. -/
def fxExpSum (x : Int) : (fuel n : Nat) → (t acc : Int) → Int
  | 0, _, _, acc => acc
  | fuel + 1, n, t, acc => fxExpSum x fuel (n + 1) (fxMul t x / (n + 1)) (acc + t)

/-- exp: the series at x ÷ 256, squared eight times. -/
def fxExp (x : Int) : Int := (upto 8).foldl (fun y _ => fxMul y y) (fxExpSum (x / 256) 48 0 fxOne 0)

/-- Σ tᵢ ÷ (2i + 1) with tᵢ₊₁ = tᵢ z: the series of atanh and atan. -/
def fxOddSum (z : Int) : (fuel i : Nat) → (t acc : Int) → Int
  | 0, _, _, acc => acc
  | fuel + 1, i, t, acc => fxOddSum z fuel (i + 1) (fxMul t z) (acc + t / (2 * i + 1))

/-- ln 2 = 2 atanh(1/3). -/
def fxLn2 : Int := 2 * fxOddSum (fxQuot 1 9) 96 0 (fxQuot 1 3) 0

/-- π = 16 atan(1/5) - 4 atan(1/239). -/
def fxPi : Int := 16 * fxOddSum (fxQuot (-1) 25) 64 0 (fxQuot 1 5) 0 - 4 * fxOddSum (fxQuot (-1) 57121) 20 0 (fxQuot 1 239) 0

/-- ln of m 2^e, m ≠ 0. -/
def fxLog (m : Nat) (e : Int) : Int :=
  let k := Nat.log2 m
  let z := fxQuot (m - 2 ^ k) (m + 2 ^ k)
  2 * fxOddSum (fxMul z z) 96 0 z 0 + (e + k) * fxLn2

/-- The alternating series of sine (from t = x, n = 2) and cosine (from t = 1, n = 1) in x². -/
def fxTrigSum (x2 : Int) : (fuel n : Nat) → (t acc : Int) → Int
  | 0, _, _, acc => acc
  | fuel + 1, n, t, acc => fxTrigSum x2 fuel (n + 2) (-(fxMul t x2) / (n * (n + 1))) (acc + t)

/-- Sine of x + q quarter turns. -/
def fxSin (x : Int) (q : Nat) : Int :=
  let half := fxPi / 2
  let n := (x + half / 2) / half
  let r := x - n * half
  let r2 := fxMul r r
  let k := (n + q) % 4
  let v := if k = 0 ∨ k = 2 then fxTrigSum r2 48 2 r 0 else fxTrigSum r2 48 1 fxOne 0
  if k = 2 ∨ k = 3 then -v else v

/-- Σ uₙ ÷ (2n + 1) with uₙ₊₁ = -uₙ x² ÷ (n + 1): the series of erf. -/
def fxErfSum (x2 : Int) : (fuel n : Nat) → (u acc : Int) → Int
  | 0, _, _, acc => acc
  | fuel + 1, n, u, acc => fxErfSum x2 fuel (n + 1) (-(fxMul u x2) / (n + 1)) (acc + u / (2 * n + 1))

/-- The integer square root, bit by bit from bit `n - 1`. -/
def isqrt (x : Nat) : (n r : Nat) → Nat
  | 0, r => r
  | n + 1, r => if (r + 2 ^ n) * (r + 2 ^ n) ≤ x then isqrt x n (r + 2 ^ n) else isqrt x n r

/-- erf; from 7 on it is 1 to within 2^-70. -/
def fxErf (x : Int) : Int :=
  if 7 * fxOne ≤ x then fxOne else if x ≤ -7 * fxOne then -fxOne
  else
    let root : Int := isqrt (fxPi * fxOne).toNat 260 0
    2 * fxErfSum (fxMul x x) 300 0 x 0 * fxOne / root

/-- 1 ÷ v, to 80 bits and a sticky one. -/
def recipVal (neg : Bool) (m : Nat) (e : Int) : Val :=
  let k := 80 + Nat.log2 m
  .num neg (2 * (2 ^ k / m) + (if 2 ^ k % m = 0 then 0 else 1)) (-e - k - 1)

/-- 1 ÷ √v, to 80 bits and a sticky one. -/
def rsqrtVal (m : Nat) (e : Int) : Val :=
  let odd := e % 2 ≠ 0
  let m := if odd then 2 * m else m
  let e := if odd then e - 1 else e
  let r := isqrt (2 ^ 240 / m) 121 0
  .num false (2 * r + (if r * r * m = 2 ^ 240 then 0 else 1)) (-e / 2 - 121)

/-- The exact value of function `op` at a finite input that has no special result. -/
def tableExact (op : Nat) (neg : Bool) (m : Nat) (e : Int) : Val :=
  let x := fxOf neg m e
  match op with
  | 0 => fxVal (fxExp x)
  | 1 => fxVal (fxLog m e)
  | 2 => recipVal neg m e
  | 3 => rsqrtVal m e
  | 4 => if m = 0 then zeroVal neg else fxVal (fxErf x)
  | 5 => if m = 0 then zeroVal neg else fxVal (fxSin x 0)
  | _ => fxVal (fxSin x 1)

/-- Whether two codes of finite FP32 values are at most `n` apart among the FP32 values of one sign. -/
def withinUlps (n a b : Nat) : Bool :=
  a / 2 ^ 31 == b / 2 ^ 31 && decide (a - b ≤ n ∧ b - a ≤ n)

/-- Whether the values of two codes differ by at most 2^-k. -/
def withinAbs (k a b : Nat) : Bool :=
  match addVal (decodeVal .fp32 a) (negVal (decodeVal .fp32 b)) with
  | .num _ m e => !magGt m e 1 (-(k : Int))
  | _ => false

/-- Whether result `r` of function `op` is as accurate as R258 asks, measured against the exact value rounded to FP32. -/
def tableNear (op r exact : Nat) : Bool :=
  let finite := field r 30 23 != 255
  finite && match op with
    | 0 => withinUlps 2 r exact
    | 1 => withinUlps 2 r exact || (decide (field exact 30 23 < 127) && withinAbs 22 r exact)
    | 2 | 3 => withinUlps 1 r exact
    | 4 => withinAbs 22 r exact
    | _ => withinAbs 21 r exact

/-- The TABLE stage's fixed function (R258): within its bound free, by `Config.tableFn`. -/
def tableValue (op code : Nat) (neg : Bool) (m : Nat) (e : Int) : Nat :=
  let exact := (writeVal .fp32 true (tableExact op neg m e)).1
  let r := (Config.tableFn op (BitVec.ofNat 32 code)).toNat
  let r := (writeVal .fp32 true (flushVal .fp32 (decodeVal .fp32 r))).1
  if tableNear op r exact then r else exact

end Sys2Proof.Machine
end

