-- ==== Sys2Proof/Machine/Fe.lean ====
section
/-! DEFINITION. The finishing engines (spec/10): descriptor checks, the chain's stages, tiles, and the two commands. -/
namespace Sys2Proof.Machine

/-! ### Checks (R254) -/

/-- Whether a stage uses operand `b`. -/
def usesB (x : Nat) : Bool :=
  match stType x with
  | 2 | 5 => true
  | 3 => decide (stOp x ≤ 5)
  | 9 => decide (stOp x ≤ 4 ∨ stOp x = 6 ∨ stOp x = 7)
  | _ => false

/-- Whether a stage uses operand `c`. -/
def usesC (x : Nat) : Bool := stType x == 2 || stType x == 5 || (stType x == 9 && stOp x == 0)

/-- Whether a stage reads Y. -/
def readsY (x : Nat) : Bool :=
  (usesB x && stBSrc x == 1) || (usesC x && stCSrc x == 1) || (stType x == 7 && stOp x == 2)

/-- The format and rounding of a CONVERT (R257); `none` where reserved. -/
def cvtOf (x round : Nat) : Option (Fmt × Nat) :=
  let code := field x 45 38
  let fmt := field x 37 34
  if code = 0 then (fmtOfCode fmt).map (·, round)
  else if fmt ≠ 0 then none
  else match code with
    | 1 => some (.bf16, 0) | 2 => some (.fp16, 0) | 3 => some (.e4m3, 0) | 4 => some (.e5m2, 0)
    | 5 => some (.e4m3, 1) | 6 => some (.e5m2, 1) | 7 => some (.int8, 0) | 8 => some (.uint8, 0)
    | 9 => some (.int32, 2) | 10 => some (.bf16, 1) | 11 => some (.e2m1, 0) | 12 => some (.e2m1, 1)
    | 16 => some (.fp32, 0) | _ => none

/-- An index code of MASK that is not reserved (R260). -/
def idxOk (c : Nat) : Bool := c != 5 && c != 6

/-- Whether a stage word holds no reserved encoding and no nonzero zero bit (R253, R255). -/
def stageOk (x round : Nat) : Bool :=
  decide (stBSrc x ≤ 1) && decide (stCSrc x ≤ 2) &&
  (match stType x with
   | 1 => stOp x == 0 && (cvtOf x round).isSome && field x 33 0 == 0
   | 2 => stOp x == 0 && field x 45 0 == 0
   | 3 => decide (stOp x ≤ 7) && field x 45 0 == 0
   | 4 => decide (stOp x ≤ 6) && field x 45 0 == 0
   | 5 => decide (stOp x ≤ 6) && field x 45 0 == 0
   | 6 => decide (stOp x ≤ 2) && decide (1 ≤ stRdims x ∧ stRdims x ≤ 5) && field x 42 0 == 0
   | 7 => decide (stOp x ≤ 3) && idxOk (stRdims x) && idxOk (field x 42 40) && field x 19 0 == 0
   | 8 => decide (stOp x ≤ 4) && field x 38 0 == 0
   | 9 => decide (stOp x ≤ 8) && field x 45 0 == 0
   | _ => false)

/-- The stages of a chain. -/
def feChain (w : Nat) : List Nat := (upto (feStages w)).map (feStage w)

/-- The dimensions of the chain's REDUCE; 0 where there is none. -/
def feRdims (w : Nat) : Nat := (((feChain w).find? fun x => stType x == 6).map stRdims).getD 0

/-- The stages after the REDUCE. -/
def afterReduce : List Nat → List Nat
  | [] => []
  | x :: xs => if stType x = 6 then xs else afterReduce xs

/-- `e0` of R252. -/
def spE0 (p i0 : Nat) : Nat :=
  if spBc0 p then 0 else if spC0 p = 8 then i0 else i0 % 2 ^ spC0 p + (i0 >>> spC0 p) * spS0c p

/-- The element number E of R252. -/
def spElem (p i0 i1 i2 i3 i4 : Nat) : Nat := spE0 p i0 + spS1 p * i1 + spS2 p * i2 + spS3 p * i3 + spS4 p * i4

/-- The largest element number for sizes `n` of the five indices. -/
def spLargest (p : Nat) (n : Nat → Nat) : Nat :=
  let c := 2 ^ spC0 p
  let last := n 0 - 1
  let e0 := max (spE0 p last) (if c ≤ n 0 then spE0 p (n 0 / c * c - 1) else 0)
  e0 + spS1 p * (n 1 - 1) + spS2 p * (n 2 - 1) + spS3 p * (n 3 - 1) + spS4 p * (n 4 - 1)

/-- Whether a specifier's own fields are good (R251). -/
def specOk (p : Nat) : Bool :=
  field p 159 159 == 0 && decide (spKind p ≤ 2) && decide (spC0 p ≤ 8) && (fmtOfCode (spFmt p)).isSome &&
  (spKind p == 0 ||
    ((spKind p != 2 || field p 7 4 == 0)
      && (decide (spBits p < 8) || spOffset p % (spBits p / 8) == 0)))

/-- Items 6 and 7 of R254 for one tensor. -/
def ClusterState.specFits (c : ClusterState) (p : Nat) (n : Nat → Nat) : Bool :=
  let e := spLargest p n
  match spKind p with
  | 1 =>
    let h := c.handle (spHandle p)
    h.valid && !h.isRing && decide (8 * spOffset p + spBits p * (e + 1) ≤ 4096 * h.length)
  | 2 => decide (8 * spOffset p + 32 * (e + 1) ≤ 32 * 16384)
  | _ => true

/-- Whether a descriptor passes R254, and R228 for the handle it waits on. -/
def ClusterState.feOk (c : ClusterState) (w : Nat) : Bool :=
  let x := feSpec w 0
  let y := feSpec w 1
  let d := feSpec w 2
  let st := feChain w
  let n := feN w
  let dn := fun i => if i < feRdims w then 1 else feN w i
  let post := afterReduce st
  let isTileOf := fun p => spKind p == 2 && !(spKind d == 2 && spTile d == spTile p)
  field w 511 256 == 0 && field w 223 199 == 0 && field w 159 130 == 0 && field w 111 109 == 0
    && field w (512 + 511) (512 + 480) == 0
    && decide (1 ≤ feStages w ∧ feStages w ≤ 12) && feRound w != 3 && (upto 5).all (fun i => feN w i != 0)
    && specOk x && specOk y && specOk d && st.all (stageOk · (feRound w))
    && (upto 12).all (fun i => decide (i < feStages w) || feStage w i == 0)
    && spKind x != 0 && spKind d != 0 && (spKind y != 0 || !st.any readsY)
    && (spKind x != 2 || spFmt x == 11 || spFmt x == 12) && (spKind y != 2 || spFmt y == 11 || spFmt y == 12)
    && (spKind d != 2 || spFmt d == 11) && !spBc0 d
    && (spFmt d == 11 || (match st.getLast? with
        | some z => stType z == 1 && ((cvtOf z (feRound w)).map (·.1)) == fmtOfCode (spFmt d)
        | none => false))
    && decide ((st.filter fun z => stType z == 6).length ≤ 1)
    && post.all (fun z => stType z != 8 && !(stType z == 7 && stOp z == 2) && !readsY z)
    && c.specFits x n && c.specFits y n && c.specFits d dn
    && (!feRelX w || isTileOf x) && (!feRelY w || isTileOf y) && (!feWaitEn w || ((c.handle (feWaitHandle w)).valid && !(c.handle (feWaitHandle w)).isRing))

/-! ### Lanes and stages (R246, R255 to R262) -/

/-- One lane: an FP32 code, its poison, predicate and mask; whether it is present. -/
structure Lane where
  v : Nat := 0
  poison : Bool := false
  masked : Bool := true
  pred : Bool := false
  present : Bool := false
  /-- Census kinds met so far, and whether a TABLE found it out of range. -/
  kinds : List Census := []
  range : Bool := false
  /-- The code that the last CONVERT wrote (R257). -/
  raw : Nat := 0
deriving DecidableEq, Repr

/-- A source element widened to FP32 (R248): code and census kind. -/
def widen (f : Fmt) (code : Nat) : Nat × Option Census :=
  match decodeVal f code with
  | .void => (0, some .void)
  | v => ((writeVal .fp32 false v).1, none)

/-- FP32 arithmetic with R120's flush on inputs and result. -/
def flushOp (r : Val → Val → Val → Val) (a b c : Nat) : Nat :=
  let f := fun x => flushVal .fp32 (decodeVal .fp32 x)
  (writeVal .fp32 true (r (f a) (f b) (f c))).1

/-- FP32 arithmetic of the precise stage, with subnormals (R256). -/
def preciseOp (r : Val → Val → Val → Val) (a b c : Nat) : Nat :=
  let f := decodeVal .fp32
  (writeVal .fp32 false (r (f a) (f b) (f c))).1

/-- A NaN. -/
def valNan : Val → Bool
  | .nan _ => true
  | _ => false

/-- The larger, or the smaller, value of R127. -/
def maxVal (a b : Val) : Val := if valNan a || valNan b then .nan false else if valLt a b then b else a
def minVal (a b : Val) : Val := if valNan a || valNan b then .nan false else if valLt b a then b else a

/-- A value without its sign. -/
def absVal : Val → Val
  | .num _ m e => .num false m e
  | .inf _ => .inf false
  | v => v

/-- A quotient: exact to 40 bits, with the rest folded into a sticky bit below them, so that one rounding is right (R256). -/
def divVal (a b : Val) : Val :=
  match a, b with
  | .num s m e, .num t n d =>
    if n = 0 then (if m = 0 then .nan false else .inf (s != t))
    else
      let k := 40 + Nat.log2 n
      let q := m * 2 ^ k / n
      let r := m * 2 ^ k % n
      .num (s != t) (2 * q + (if r = 0 then 0 else 1)) (e - d - k - 1)
  | .num s _ _, .inf t => zeroVal (s != t)
  | .inf s, .num t _ _ => .inf (s != t)
  | _, _ => .nan false

/-- A square root, with a sticky bit (R256). -/
def sqrtVal : Val → Val
  | .num s m e =>
    if m = 0 then zeroVal s
    else if s then .nan false
    else
      let odd := e % 2 ≠ 0
      let m' := (if odd then 2 * m else m) * 2 ^ 60
      let e' := (if odd then e - 1 else e) - 60
      let r := isqrt m' 64 0
      .num false (2 * r + (if r * r = m' then 0 else 1)) (e' / 2 - 1)
  | .inf s => if s then .nan false else .inf false
  | _ => .nan false

/-- A magnitude above a dyadic bound. -/
def valAbove (v : Val) (m : Nat) (e : Int) : Bool :=
  match v with
  | .num _ n d => magGt n d m e
  | .inf _ => true
  | _ => false

/-- The TABLE stage (R258): the stated special results, and the function's value elsewhere; whether the input is out of range. -/
def tableOp (op a : Nat) : Nat × Bool :=
  let v := flushVal .fp32 (decodeVal .fp32 a)
  let code := (writeVal .fp32 true v).1
  let inf := fun s => encodeInf .fp32 s
  let nan := encodeNan .fp32 false
  let neg := bitAt code 31
  let exact := fun s m e => tableValue op code s m e
  match v with
  | .nan _ => (nan, false)
  | .void => (nan, false)
  | .inf s =>
    match op with
    | 0 => (if s then 0 else inf false, false)
    | 1 => (if s then nan else inf false, false)
    | 2 => (encodeNum .fp32 s 0 0, false)
    | 3 => (if s then nan else 0, false)
    | 4 => (if s then 0xBF800000 else 0x3F800000, false)
    | _ => (nan, true)
  | .num s m e =>
    match op with
    | 0 =>
      if s then (if magGt m e 88 0 || decide (fxExp (fxOf s m e) < 2 ^ (fxBits - 126)) then (0, false) else (exact s m e, false))
      else if magGt (100 * m) e 8872 0 then (inf false, false) else (exact s m e, false)
    | 1 => if m = 0 then (inf true, false) else if neg then (nan, false) else (exact s m e, false)
    | 2 => if m = 0 then (inf s, false) else if magGt m e 1 126 then (encodeNum .fp32 s 0 0, false) else (exact s m e, false)
    | 3 => if m = 0 then (inf s, false) else if neg then (nan, false) else (exact s m e, false)
    | 4 => (exact s m e, false)
    | _ => if magGt m e 1 15 then (nan, true) else (exact s m e, false)

/-- Relation `op` of COMPARE_SELECT (R256). -/
def compareOp (op a b : Nat) : Bool :=
  let x := flushVal .fp32 (decodeVal .fp32 a)
  let y := flushVal .fp32 (decodeVal .fp32 b)
  let isZero := fun (v : Val) => match v with | .num _ m _ => m == 0 | _ => false
  let un := valNan x || valNan y
  let eq := !un && ((isZero x && isZero y) || (!valLt x y && !valLt y x))
  let lt := !un && !eq && valLt x y
  match op with
  | 0 => eq
  | 1 => !eq
  | 2 => lt
  | 3 => lt || eq
  | 4 => !un && !eq && !lt
  | 5 => !un && !lt
  | _ => un

/-- What a stage knows of an element beside its lane: n, the five indices, and Y's element. -/
structure Elem where
  n : Nat
  idx : List Nat
  y : Nat × Bool
deriving DecidableEq, Repr

/-- An index of an element by its code; 7 reads as 0 (R260). -/
def Elem.index (e : Elem) (code : Nat) : Nat := if code = 7 then 0 else e.idx.getD code 0

/-- Operand `b` or `c` of a stage: code and poison. -/
def operandB (w x : Nat) (e : Elem) : Nat × Bool := if stBSrc x = 1 then e.y else (feConst w (stBK x), false)
def operandC (w x : Nat) (e : Elem) : Nat × Bool :=
  if stCSrc x = 1 then e.y else if stCSrc x = 2 then (0, false) else (feConst w (stCK x), false)

/-- A stage that acts lane by lane (R255 to R260). -/
def laneStage (w sigma x : Nat) (e : Elem) (l : Lane) : Lane :=
  let b := operandB w x e
  let c := operandC w x e
  let pb := usesB x && b.2
  let pc := usesC x && c.2
  let two := fun (v : Nat) => { l with v := v, poison := l.poison || pb || pc }
  match stType x with
  | 1 => match cvtOf x (feRound w) with
    | some (g, mode) =>
      let r := convertElem .fp32 g mode (feSat w) (randomWord sigma e.n) l.v
      { l with v := (widen g r.code).1, raw := r.code, kinds := l.kinds ++ r.census.toList }
    | none => l
  | 2 => two (flushOp (fun a b c => addVal (mulVal a b) c) l.v b.1 c.1)
  | 3 => match stOp x with
    | 0 => two (flushOp (fun a b _ => addVal a b) l.v b.1 0)
    | 1 => two (flushOp (fun a b _ => addVal a (negVal b)) l.v b.1 0)
    | 2 => two (flushOp (fun a b _ => addVal b (negVal a)) l.v b.1 0)
    | 3 => two (flushOp (fun a b _ => mulVal a b) l.v b.1 0)
    | 4 => two (flushOp (fun a b _ => maxVal a b) l.v b.1 0)
    | 5 => two (flushOp (fun a b _ => minVal a b) l.v b.1 0)
    | 6 => two (flushOp (fun a _ _ => absVal a) l.v 0 0)
    | _ => two (flushOp (fun a _ _ => negVal a) l.v 0 0)
  | 4 => let r := tableOp (stOp x) l.v
         { l with v := r.1, range := l.range || r.2 }
  | 5 =>
    let p := compareOp (stOp x) l.v b.1
    let f := fun (z : Nat) => (writeVal .fp32 true (flushVal .fp32 (decodeVal .fp32 z))).1
    { two (if p then f l.v else f c.1) with pred := p }
  | 7 =>
    let keep := match stOp x with
      | 0 => l.pred
      | 1 => !l.pred
      | 2 => match decodeVal .fp32 e.y.1 with | .num _ m _ => m != 0 | _ => true
      | _ => decide ((e.index (stRdims x) : Int) ≤ e.index (field x 42 40) + signedOf (field x 39 20) 20)
    { l with masked := l.masked || !keep, poison := l.poison || (stOp x == 2 && e.y.2) }
  | 9 => match stOp x with
    | 0 => two (preciseOp (fun a b c => addVal (mulVal a b) c) l.v b.1 c.1)
    | 1 => two (preciseOp (fun a b _ => addVal a b) l.v b.1 0)
    | 2 => two (preciseOp (fun a b _ => addVal a (negVal b)) l.v b.1 0)
    | 3 => two (preciseOp (fun a b _ => mulVal a b) l.v b.1 0)
    | 4 => two (preciseOp (fun a b _ => divVal a b) l.v b.1 0)
    | 5 => two (preciseOp (fun a _ _ => sqrtVal a) l.v 0 0)
    | 6 => two (preciseOp (fun a b _ => maxVal a b) l.v b.1 0)
    | 7 => two (preciseOp (fun a b _ => minVal a b) l.v b.1 0)
    | _ => two (preciseOp (fun a _ _ => a) l.v 0 0)
  | _ => l

/-- The lane that a SHUFFLE takes its value from: lane and whether the sign turns (R262). -/
def shuffleFrom (x l : Nat) : Nat × Bool :=
  let k := field x 45 39
  match stOp x with
  | 0 => (if l % 2 = 0 then l + 1 else l - 1, false)
  | 1 => if l % 2 = 0 then (l + 1, true) else (l - 1, false)
  | 2 => (127 - l, false)
  | 3 => ((l + k) % 128, false)
  | _ => (k, false)

/-- A SHUFFLE of a vector (R262): values and poison move; mask, presence and predicate stay. -/
def shuffleStage (x : Nat) (ls : List Lane) : List Lane :=
  ls.zipIdx.map fun p =>
    let (j, turn) := shuffleFrom x p.2
    let src := ls.getD j {}
    let v := if src.present then src.v else 0
    let v := if turn then (writeVal .fp32 false (negVal (decodeVal .fp32 v))).1 else v
    { p.1 with v := v, poison := src.present && src.poison }

/-- A stage other than REDUCE on the lanes of a vector. -/
def vectorStage (w sigma : Nat) (es : List Elem) (ls : List Lane) (x : Nat) : List Lane :=
  if stType x = 8 then shuffleStage x ls
  else ls.zipIdx.map fun p => match es[p.2]? with
    | some e => laneStage w sigma x e p.1
    | none => p.1

/-! ### REDUCE (R261) -/

/-- The identity of a reduction, as an FP32 code. -/
def reduceUnit (op : Nat) : Nat := match op with | 0 => 0 | 1 => encodeInf .fp32 true | _ => encodeInf .fp32 false

/-- Two values combined. -/
def reduceTwo (op a b : Nat) : Nat :=
  match op with
  | 0 => flushOp (fun a b _ => addVal a b) a b 0
  | 1 => flushOp (fun a b _ => maxVal a b) a b 0
  | _ => flushOp (fun a b _ => minVal a b) a b 0

/-- Lanes 2m and 2m + 1 combined. -/
def reducePairs (op : Nat) : List Nat → List Nat
  | a :: b :: rest => reduceTwo op a b :: reducePairs op rest
  | xs => xs

/-- A vector's 128 lanes combined to one value. -/
def reduceVector (op : Nat) (ls : List Lane) : Nat :=
  let vs := ls.map fun l => if l.masked then reduceUnit op else l.v
  ((upto 7).foldl (fun vs _ => reducePairs op vs) vs).getD 0 0

/-- The reduction of the open group: its value, whether a contribution was unmasked, poison. -/
structure Group where
  acc : Option Nat := none
  some_ : Bool := false
  poison : Bool := false
deriving DecidableEq, Repr

/-- A vector taken into the group. -/
def Group.take (g : Group) (op : Nat) (ls : List Lane) : Group :=
  let v := reduceVector op ls
  { acc := some (match g.acc with | some a => reduceTwo op a v | none => v),
    some_ := g.some_ || ls.any fun l => !l.masked,
    poison := g.poison || ls.any fun l => !l.masked && l.poison }

/-! ### Reading (R247, R248, R252) -/

/-- An element of a row-memory tensor: its code and the poison of its word. -/
def ClusterState.rowElem (c : ClusterState) (k base bit b : Nat) : Nat × Bool :=
  let r := c.row k (base + bit / 4096)
  (field r.data.toNat (bit % 4096 + b - 1) (bit % 4096), r.poison.getLsbD (bit % 4096 / 256))

/-- Element `e` of tile `t` of FE `u`. -/
def FinishingEngine.tileElem (f : FinishingEngine) (u t e : Nat) : AccWord :=
  let x := SMap.getD f.tiles t {}
  match SMap.get? x.data e with
  | some w => w
  | none => ⟨Config.freeTile x.base (4 * u + t) e, false⟩

/-- Element E of a tensor, widened (R248): FP32 code, poison, census kind. -/
def ClusterState.tensorElem (c : ClusterState) (k u p e : Nat) : Nat × Bool × Option Census :=
  let f := (fmtOfCode (spFmt p)).getD .fp32
  let bit := 8 * spOffset p + spBits p * e
  let (code, poison) := match spKind p with
    | 1 => c.rowElem k (c.handle (spHandle p)).baseRow bit (spBits p)
    | _ => let w := (SMap.getD c.fes u {}).tileElem u (spTile p) (bit / 32)
           (w.bits.toNat, w.poison)
  let (v, kind) := widen f code
  (v, poison, kind)

/-- The five indices of element `n`. -/
def indicesOf (w n : Nat) : List Nat :=
  let a := n / feN w 0
  let b := a / feN w 1
  let c := b / feN w 2
  [n % feN w 0, a % feN w 1, b % feN w 2, c % feN w 3, c / feN w 3]

/-- E of R252 at indices. -/
def elemAt (p : Nat) (i : List Nat) : Nat := spElem p (i.getD 0 0) (i.getD 1 0) (i.getD 2 0) (i.getD 3 0) (i.getD 4 0)

/-- The elements of vector `v` and their lanes. -/
def ClusterState.readVector (c : ClusterState) (k u w first len : Nat) : List Elem × List Lane :=
  let es := (upto len).map fun l =>
    let n := first + l
    let i := indicesOf w n
    let y := if (feChain w).any readsY then c.tensorElem k u (feSpec w 1) (elemAt (feSpec w 1) i) else (0, false, none)
    ((⟨n, i, (y.1, y.2.1)⟩ : Elem), y.2.2)
  let ls := es.map fun e =>
    let r := c.tensorElem k u (feSpec w 0) (elemAt (feSpec w 0) e.1.idx)
    ({ v := r.1, poison := r.2.1, masked := false, present := true, kinds := r.2.2.toList ++ e.2.toList } : Lane)
  (es.map (·.1), ls ++ List.replicate (128 - len) ({ v := 0 } : Lane))

/-! ### A descriptor's run -/

/-- What a run has made so far. -/
structure FeFold where
  census : CensusRun := {}
  outs : List FeOut := []
  group : Group := {}
  range : Nat := 0
  vectors : Nat := 0
deriving DecidableEq, Repr

/-- The present, unmasked lanes of a vector counted in their census kinds and range (R258, R267). -/
def FeFold.count (r : FeFold) (w : Nat) (es : List Elem) (ls : List Lane) : FeFold :=
  (es.zip ls).foldl (fun r x =>
    if x.2.masked then r
    else
      let r := if x.2.range && r.census.abort.isNone then { r with range := r.range + 1 } else r
      { r with census := x.2.kinds.foldl (fun c k => c.add (feMask w) (feEvt w) (feAbt w) x.1.n (some k)) r.census }) r

/-- A lane as an element of the destination. -/
def outOf (w vec : Nat) (e : Elem) (l : Lane) : FeOut :=
  let d := feSpec w 2
  let f := (fmtOfCode (spFmt d)).getD .fp32
  let code := if f = .fp32 then l.v else l.raw
  ⟨e.n, elemAt d e.idx, code, l.poison, l.masked, vec⟩

/-- Elements of one group of the chain's REDUCE; 1 where there is none. -/
def feGroup (w : Nat) : Nat := (upto (feRdims w)).foldl (fun (p i : Nat) => p * feN w i) 1

/-- One vector through the chain (R247, R261). -/
def ClusterState.feVector (c : ClusterState) (k u w sigma : Nat) (r : FeFold) (first len : Nat) : FeFold :=
  if r.census.abort.isSome then r
  else
    let st := feChain w
    let rd := feRdims w
    let pre := if rd = 0 then st else st.takeWhile fun x => stType x != 6
    let (es, ls) := c.readVector k u w first len
    let ls := pre.foldl (vectorStage w sigma es) ls
    let r := { r.count w es ls with vectors := r.vectors + 1 }
    if rd = 0 then { r with outs := r.outs ++ (es.zip ls).map fun x => outOf w r.vectors x.1 x.2 }
    else
      let op := ((st.find? fun x => stType x == 6).map stOp).getD 0
      let g := r.group.take op ls
      let size := feGroup w
      if (first + len) % size != 0 || r.census.abort.isSome then { r with group := g }
      else
        let n := first + len - size
        let e : Elem := ⟨n, indicesOf w n, (0, false)⟩
        let l : Lane := { v := g.acc.getD 0, poison := g.poison, masked := !g.some_, present := true }
        let l := (afterReduce st).foldl (fun l x => laneStage w sigma x e l) l
        let r := { r.count w [e] [l] with group := {} }
        { r with outs := r.outs ++ [outOf w r.vectors e l] }

/-- The vectors of a descriptor: first element and length, in ascending n (R247). -/
def feVectors (w : Nat) : List (Nat × Nat) :=
  let n0 := feN w 0
  (upto (feN w 1 * feN w 2 * feN w 3 * feN w 4)).flatMap fun r =>
    (upto ((n0 + 127) / 128)).map fun v => (n0 * r + 128 * v, min 128 (n0 - 128 * v))

/-- The whole chain over a descriptor's elements. -/
def ClusterState.feRun (c : ClusterState) (k u w : Nat) : FeFold :=
  let sigma := streamSigma (feSeed w) k (feMix w)
  (feVectors w).foldl (fun r v => c.feVector k u w sigma r v.1 v.2) {}

/-! ### The destination (R263, R264) -/

/-- An open row of the destination latch: the row, what it was before, bits written, whether a write was made of it before. -/
structure OpenRow where
  row : Nat
  outs : List FeOut := []
deriving DecidableEq, Repr

/-- Absolute row of an element of a row destination. -/
def outRow (base d : Nat) (o : FeOut) : Nat := base + (8 * spOffset d + spBits d * o.place) / 4096

/-- A field of a row replaced by a code. -/
def putBits (data : Nat) (bit b code : Nat) : Nat := setField data (bit + b - 1) bit code

/-- How many places a list of elements lies in. -/
def placesOf (outs : List FeOut) : Nat := (outs.map (·.place)).eraseDups.length

/-- A row with its elements written: `old` the row read, if it was read (R263, R264). -/
def composeRow (w d : Nat) (old : Option Row) (outs : List FeOut) : Row :=
  let b := spBits d
  let at_ := fun (o : FeOut) => (8 * spOffset d + b * o.place) % 4096
  let written := outs.filter fun o => !(o.masked && feKeep w)
  let start := old.getD {}
  let data := written.foldl (fun x o => putBits x (at_ o) b (if o.masked then 0 else o.code)) start.data.toNat
  let poison := (upto 16).foldl (fun p i =>
    let here := written.filter fun o => at_ o / 256 == i
    let bad := here.any fun o => o.poison && !o.masked
    let kept := start.poison.getLsbD i && decide (placesOf here * b < 256)
    if bad || kept then p + 2 ^ i else p) 0
  { data := BitVec.ofNat 4096 data, poison := BitVec.ofNat 16 poison }

/-- Whether a row's elements cover every byte of it. -/
def coversRow (d : Nat) (outs : List FeOut) : Bool := decide (4096 ≤ spBits d * placesOf outs)

/-- A row of the destination written: `again` when it was closed early before, `all` every element of the descriptor in it. -/
def State.closeRow (s : State) (k u w : Nat) (r : OpenRow) (again : Bool) (all : List FeOut) : State :=
  let d := feSpec w 2
  let reads := again || (feMerge w && !coversRow d all) || (feKeep w && r.outs.any (·.masked))
  let row := composeRow w d (if reads then some ((s.cl k).row k r.row) else none) r.outs
  let s := if reads then (s.askRow k (6 + u) r.row false).count (pgFe k u) 4 1 else s
  let s := ((s.askRow k (6 + u) r.row true).modCl k (·.setRow r.row row)).count (pgFe k u) 3 1
  s.arriveIf k (spHandle d) (feArrive w) row.anyPoison

/-- The rows of a row destination written in the order in which they close, with the latch of 8 open rows (R246, R263). -/
def State.writeFeRows (s : State) (k u w : Nat) (outs : List FeOut) : State :=
  let d := feSpec w 2
  let base := ((s.cl k).handle (spHandle d)).baseRow
  let mine := fun r => outs.filter fun o => outRow base d o == r
  let left : SMap Nat := outs.foldl (fun m o => SMap.mod m (outRow base d o) 0 (· + 1)) []
  let fin := outs.foldl (fun (acc : State × List OpenRow × SMap Nat × List Nat) o =>
    let (s, open_, left, early) := acc
    let r := outRow base d o
    let (s, open_, early) :=
      if open_.any (·.row == r) then (s, open_, early)
      else match open_ with
        | old :: rest =>
          if 8 ≤ open_.length then
            ((s.closeRow k u w old (early.contains old.row) (mine old.row)).count (pgFe k u) 5 1, rest ++ [⟨r, []⟩], old.row :: early)
          else (s, open_ ++ [⟨r, []⟩], early)
        | [] => (s, [⟨r, []⟩], early)
    let open_ := open_.map fun x => if x.row = r then { x with outs := x.outs ++ [o] } else x
    let n := SMap.getD left r 0 - 1
    let left := SMap.put left r n
    if n = 0 then
      match open_.find? (·.row == r) with
      | some x => (s.closeRow k u w x (early.contains r) (mine r), open_.filter (·.row != r), left, early)
      | none => (s, open_, left, early)
    else (s, open_, left, early)) (s, [], left, [])
  fin.1

/-- Tile elements written (R263, R264). -/
def State.writeFeTile (s : State) (k u w : Nat) (outs : List FeOut) : State :=
  let d := feSpec w 2
  let put := fun (t : Tile) (o : FeOut) =>
    if o.masked && feKeep w then t
    else { t with data := SMap.put t.data ((8 * spOffset d + 32 * o.place) / 32)
                            ⟨BitVec.ofNat 32 (if o.masked then 0 else o.code), o.poison && !o.masked⟩ }
  s.modCl k fun c => { c with fes := SMap.mod c.fes u {} fun f =>
    { f with tiles := SMap.mod f.tiles (spTile d) {} fun t => outs.foldl put t } }

/-- The elements of a descriptor reach their destination. -/
def State.writeFe (s : State) (k u w : Nat) (outs : List FeOut) : State :=
  if spKind (feSpec w 2) = 1 then s.writeFeRows k u w outs else s.writeFeTile k u w outs

/-! ### Tiles (R265) -/

/-- A tile's state set, from cycle `since` on. -/
def ClusterState.setTile (c : ClusterState) (u t : Nat) (st : TileState) (since : Nat) : ClusterState :=
  c.modTile u t fun x => { x with state := st, since := since }

/-! ### Source rows (counter 2 of R270) -/

/-- The row of its handle in which a row-memory tensor's element `n` lies. -/
def srcRow (w p n : Nat) : Nat := (8 * spOffset p + spBits p * elemAt p (indicesOf w n)) / 4096

/-- The distinct rows of its handle that a row-memory tensor's elements in the vectors `vs` lie in. -/
def rowsRead (w p : Nat) (vs : List (Nat × Nat)) : List Nat :=
  if spKind p ≠ 1 then []
  else vs.foldl (fun (rs : List Nat) v => (upto v.2).foldl (fun rs l =>
    let r := srcRow w p (v.1 + l)
    if rs.contains r then rs else r :: rs) rs) []

/-- The source tensors that a descriptor reads from row memory. -/
def rowSources (w : Nat) : List Nat :=
  (feSpec w 0 :: if (feChain w).any readsY then [feSpec w 1] else []).filter (spKind · == 1)

/-- A row that the chain needs: read, unless it is among the 16 of the source latch, where it takes the oldest one's place (R246). -/
def needRow (a : List Nat × List Nat) (r : Nat) : List Nat × List Nat :=
  if a.1.contains r then a else ((a.1 ++ [r]).drop (a.1.length - 15), r :: a.2)

/-- The rows that a descriptor reads in the vectors `vs`, in order: those that X's lanes need, then those of Y's. -/
def ClusterState.latchReads (c : ClusterState) (w : Nat) (vs : List (Nat × Nat)) : List Nat :=
  (vs.foldl (fun a v => (rowSources w).foldl (fun a p => (upto v.2).foldl (fun a l =>
    needRow a ((c.handle (spHandle p)).baseRow + srcRow w p (v.1 + l))) a) a) ([], [])).2.reverse

/-- The rows, in the cluster, that a source of another handle or layout shares with the destination's rows (R254). -/
def ClusterState.sharedRows (c : ClusterState) (w : Nat) (outs : List FeOut) : List Nat :=
  let d := feSpec w 2
  let srcs := (feSpec w 0 :: if (feChain w).any readsY then [feSpec w 1] else []).filter (· != d)
  let read := srcs.flatMap fun p => (rowsRead w p (feVectors w)).map (· + (c.handle (spHandle p)).baseRow)
  if spKind d ≠ 1 then [] else (outs.map (outRow (c.handle (spHandle d)).baseRow d)).eraseDups.filter read.contains

/-- Rows that end with contents the manual leaves to latch timing (R254). -/
def State.spoilRows (s : State) (k : Nat) (rows : List Nat) : State :=
  if rows.isEmpty then s
  else
    let (n, s) := s.fresh
    s.modCl k fun c => rows.foldl (fun c r => c.setRow r { c.row k r with data := Config.freeRowBits n k r }) c

/-! ### The commands -/

/-- An FE changed. -/
def State.modFe (s : State) (k u : Nat) (f : FinishingEngine → FinishingEngine) : State :=
  s.modCl k fun c => { c with fes := SMap.mod c.fes u {} f }

/-- The counts of a descriptor's reads and census (R267, R270). -/
def State.countFe (s : State) (k u w : Nat) (r : FeFold) : State :=
  let n := pgFe k u
  let vs := (feVectors w).take r.vectors
  let rows := (s.cl k).latchReads w vs
  let latched := !(rowSources w).isEmpty || spKind (feSpec w 2) == 1
  let (free, s) := s.fresh
  let s := rows.foldl (fun s row => s.askRow k (6 + u) row false) s
  let s := (((s.count n 0 (vs.foldl (fun t v => t + v.2) 0)).count n 1 r.vectors).count n 2 rows.length).count n 8
    (if latched then Config.feStalls free else 0)
  let s := if 0 < r.range then (s.count n 7 r.range).pulse n 2 else s
  let s := if r.census.event then s.pulse n 8 else s
  s.modFe k u fun f => { f with census := r.census.counts, vectors := r.vectors }

/-- The elements of the destination: the first source element of each, and the one past its last (R261). -/
def feDests (w : Nat) : List (Nat × Nat) :=
  let size := feGroup w
  (upto (feN w 0 * feN w 1 * feN w 2 * feN w 3 * feN w 4 / size)).map fun g => (size * g, size * (g + 1))

/-- A census abort (R139, R267): what comes wholly before the threshold element is written, and the task ends. -/
def State.abortFe (s : State) (k u w n : Nat) (r : FeFold) : State :=
  let d := feSpec w 2
  let keep := r.outs.filter (·.n < n)
  let outs := if spKind d = 1 then
      let base := ((s.cl k).handle (spHandle d)).baseRow
      let late := (feDests w).filterMap fun e =>
        if n < e.2 then some (outRow base d ⟨0, elemAt d (indicesOf w e.1), 0, false, false, 0⟩) else none
      keep.filter fun o => !late.contains (outRow base d o)
    else keep
  let shared := (s.cl k).sharedRows w outs
  let s := ((s.writeFe k u w outs).spoilRows k shared).modFe k u fun f => { f with queue := [] }
  (s.pulse (pgFe k u) 9).endTask k { status := 9, engine := 2, part := u, value := n }

/-- FE_DESCRIPTOR_START (R249, R254, R265): the descriptor at the head of the queue is refused, or makes its reads. -/
def execFeDescriptorStart (k : Cl) (e : Fin 4) (s : State) : Res :=
  .next (let k := k.val
         let u := e.val
         let c := s.cl k
         match (SMap.getD c.fes u {}).queue with
         | [] => s
         | d :: rest =>
           let w := d.bits.toNat
           if s.halts k then s
           else if !c.feOk w then
             (s.modFe k u fun f => { f with queue := rest, headAt := s.clock }).refuseDesc k 2 u 0 d.offset
           else if !c.waitMet (feWaitEn w) (feWaitHandle w) (feWaitCount w) || !c.tilesMet u w then s
           else
             let r := c.feRun k u w
             let s := (s.count (pgFe k u) 6 (s.tileWait k u)).modFe k u fun f => { f with queue := rest, headAt := s.clock }
             let s := (s.countFe k u w r).active k
             let x := feSpec w 0
             let y := feSpec w 1
             let o := feSpec w 2
             let s := s.modCl k fun c =>
               let c := if feRelX w then c.setTile u (spTile x) .free (s.clock + 1) else c
               let c := if feRelY w then c.setTile u (spTile y) .free (s.clock + 1) else c
               if spKind o = 2 then c.setTile u (spTile o) .filling s.clock else c
             match r.census.abort with
             | some n => s.abortFe k u w n r
             | none => s.modFe k u fun f => { f with running := f.running ++ [⟨d, r.outs⟩] })

/-- FE_DESCRIPTOR_DONE (R249): the oldest descriptor that has made its reads writes its last element. -/
def execFeDescriptorDone (k : Cl) (e : Fin 4) (s : State) : Res :=
  .next (let k := k.val
         let u := e.val
         match (SMap.getD (s.cl k).fes u {}).running with
         | [] => s
         | r :: rest =>
           let w := r.desc.bits.toNat
           let shared := (s.cl k).sharedRows w r.outs
           let s := ((s.modFe k u fun f => { f with running := rest }).writeFe k u w r.outs).spoilRows k shared
           let s := if spKind (feSpec w 2) = 2 then s.modCl k (·.setTile u (spTile (feSpec w 2)) .ready (s.clock + 1)) else s
           ((s.pulse (pgFe k u) 1).finishRecord k r.desc).active k)

end Sys2Proof.Machine
end

