-- ==== Sys2Proof/Machine/Lacing.lean ====
section
/-! DEFINITION. Lacing (R299 to R303): the Lacing unit's queue, taps and sources. -/
namespace Sys2Proof.Machine

/-! ### The fields of R299 that only the unit reads -/

def lcArrive (w : Nat) : Bool := bitAt w 111
def lcPace (w : Nat) : Bool := bitAt w 110
def lcHandle (w : Nat) : Nat := field w 106 101
def lcRow0 (w : Nat) : Nat := field w 100 88
def lcTotal (w : Nat) : Nat := field w 71 48
def lcFirst (w : Nat) : Nat := field w 47 24
def lcKeep (w : Nat) : Nat := field w 23 0

/-- Whether a field holds a reserved encoding (R299). -/
def lcReserved (w : Nat) : Bool :=
  !(lcOp w == 1 || lcOp w == 2) || field w 121 120 == 3 || decide (5 ≤ field w 115 113) || field w 87 72 != 0
    || lcTotal w == 0 || (lcOp w == 2 && lcKeep w != 0)

/-- Rows of the handle that the descriptor reaches. -/
def lcReach (w : Nat) : Nat :=
  if lcOp w = 2 then lcRow0 w + lcTotal w
  else
    let kept := min (lcKeep w) (lcTotal w - lcFirst w)
    if kept = 0 then 0 else lcRow0 w + kept

/-- The checks at the head of the queue (R303). Lines of one edge start at the same core, so two descriptors of one edge share
lines. -/
def ClusterState.lcOk (c : ClusterState) (w : Nat) : Bool :=
  let h := c.handle (lcHandle w)
  !lcReserved w && h.valid && !h.isRing && decide (lcReach w ≤ h.length)
    && !c.lacing.active.any fun r => lcEdge r.2.bits == lcEdge w

/-- The TAP at place `i` gives room for `rows` rows back to every line's circuit (R301). -/
def State.tapRoom (s : State) (k i w rows : Nat) : State :=
  (upto (lcLines w)).foldl (fun s line => s.tapFrees k i line (rows * lcPerRow w) (field w 119 116)) s

/-- The head of the queue becomes active at place `i`, when the place is free and the head is of type `op`; a head that fails its
checks is refused. -/
def State.lcActivate (s : State) (k i op : Nat) : State :=
  let c := s.cl k
  if (SMap.get? c.lacing.active i).isSome || s.halts k then s
  else match c.lacing.queue with
    | [] => s
    | d :: rest =>
      let w := d.bits.toNat
      let s' := s.modCl k fun c => { c with lacing := { c.lacing with queue := rest } }
      if !c.lcOk w then s'.refuseDesc k 4 0 0 d.offset
      else if lcOp w != op then s
      else
        let s' := s'.modCl k fun c => { c with lacing := { c.lacing with
          active := SMap.put c.lacing.active i { desc := d, nextLaunch := s.clock } } }
        if op = 1 then s'.tapRoom k i w 64 else s'

/-- The progress of the descriptor at place `i` after row `row`: done after `TOTAL` rows (R301, R302). -/
def State.lcAfter (s : State) (k i : Nat) (r : LacingRun) : State :=
  if lcTotal r.bits ≤ r.row then
    (s.modCl k fun c => { c with lacing := { c.lacing with active := SMap.del c.lacing.active i } }).finishRecord k r.desc
  else s.modCl k fun c => { c with lacing := { c.lacing with active := SMap.put c.lacing.active i r } }

/-! ### TAP (R300, R301) -/

/-- The 16 B piece of a row that token `j` of a row on line `line` carries (R300). -/
def lcPiece (w line j : Nat) : Nat := line + lcLines w * j

/-- The row that the held tokens make. -/
def LacingRun.rowOfTokens (r : LacingRun) : Row :=
  let w := r.bits
  (upto (lcLines w)).foldl (fun row line =>
    (((SMap.getD r.tokens line []).take (lcPerRow w)).zipIdx).foldl (fun (row : Row) t =>
      let p := lcPiece w line t.2
      { data := BitVec.ofNat 4096 (setField row.data.toNat (128 * p + 127) (128 * p) t.1.payload.toNat)
        poison := if t.1.poison then row.poison ||| BitVec.ofNat 16 (2 ^ (p / 2)) else row.poison }) row) {}

/-- Whether every token of the next row has arrived. -/
def LacingRun.rowHere (r : LacingRun) : Bool :=
  (upto (lcLines r.bits)).all fun line => decide (lcPerRow r.bits ≤ (SMap.getD r.tokens line []).length)

/-- TAP (R301): the next laced row whose 32 tokens have arrived is written when it is kept, and its room goes back. -/
def execTap (k : Cl) (n : Fin 2) (s : State) : Res :=
  .next (let k := k.val
         let s := s.lcActivate k n.val 1
         match SMap.get? (s.cl k).lacing.active n.val with
         | none => s
         | some r =>
           let w := r.bits
           if lcOp w != 1 || !r.rowHere then s
           else
             let r' := { r with row := r.row + 1
                                tokens := SMap.mapAll r.tokens (·.drop (lcPerRow w)) }
             let s := s.lcAfter k n.val r'
             if !lcKeeps w r.row then s.active k
             else
               let row := r.rowOfTokens
               let s := s.moveRows k 4 (lcHandle w) (lcRow0 w + (r.row - lcFirst w)) (lcArrive w) [row]
               (s.tapRoom k n.val w 1).active k)

/-! ### SOURCE (R300, R302) -/

/-- Token `m` of a line: its place in row `m` div (32 ÷ L), and END on the line's last token. -/
def lcToken (w : Nat) (row : Row) (line m : Nat) : Token :=
  let p := lcPiece w line (m % lcPerRow w)
  { payload := BitVec.ofNat 128 (row.data.toNat >>> (128 * p)), fold := BitVec.ofNat 3 (lcFold w),
    endBit := m + 1 == lcTotal w * lcPerRow w, poison := row.poison.getLsbD (p / 2) }

/-- Cycles until a phase of the descriptor. -/
def lcWait (w now : Nat) : Nat := (firstSome (fun i => lcHolds w ((now + i) % 16)) (upto 16)).getD 0

/-- The launches of one phase: every line that has not finished its row and holds a credit. -/
def State.lcLaunch (s : State) (k : Nat) (row : Row) (r : LacingRun) : State × LacingRun :=
  let w := r.bits
  (upto (lcLines w)).foldl (fun (acc : State × LacingRun) line =>
    let m := SMap.getD acc.2.arrived line 0
    let c := SMap.getD acc.2.credit line 0
    if (r.row + 1) * lcPerRow w ≤ m ∨ c = 0 then acc
    else
      (acc.1.driveLink k (lcCoreOf w line) (dirOf (lcEdge w)) (lcToken w row line m) acc.1.clock,
       { acc.2 with arrived := SMap.put acc.2.arrived line (m + 1), credit := SMap.put acc.2.credit line (c - 1) })) (s, r)

/-- The phases of one row: one launch on each line in each. -/
def State.lcPhases (k : Nat) (row : Row) : (n : Nat) → State → LacingRun → State × LacingRun
  | 0, s, r => (s, r)
  | n + 1, s, r =>
    let s := s.reachClock r.nextLaunch
    let s := s.advance (lcWait r.bits s.now)
    let (s, r) := s.lcLaunch k row r
    State.lcPhases k row n s { r with nextLaunch := s.clock + 1 }

/-- SOURCE (R302): the tokens of the next row leave against the lines' credits, in the descriptor's phases. -/
def execSource (k : Cl) (n : Fin 2) (s : State) : Res :=
  .next (let k := k.val
         let s := s.lcActivate k n.val 2
         match SMap.get? (s.cl k).lacing.active n.val with
         | none => s
         | some r =>
           let w := r.bits
           let c := s.cl k
           if lcOp w != 2 || s.halts k
               || !(c.waitMet (lcPace w) (lcHandle w) (lcRow0 w + r.row + 1)) then s
           else
             let at_ := (c.handle (lcHandle w)).baseRow + lcRow0 w + r.row
             let row := r.latch.getD (c.row k at_)
             let s := if r.latch.isNone then s.traffic k 4 at_ 1 false else s
             let (s, r) := State.lcPhases k row (lcPerRow w) s r
             let sent := (upto (lcLines w)).all fun line =>
               decide ((r.row + 1) * lcPerRow w ≤ SMap.getD r.arrived line 0)
             (s.lcAfter k n.val (if sent then { r with row := r.row + 1, latch := none } else { r with latch := some row })).active k)

end Sys2Proof.Machine
end

