-- ==== Sys2Proof/Machine/PageCommands.lean ====
section
/-! DEFINITION. The commands that act on a page's counters, events, error record and lock groups (R35 to R41). -/
namespace Sys2Proof.Machine

/-- CTR_CLEAR (R40): every counter of the page, the meters among them, but the machine-time counter, which is not among the
page's stored ones. -/
def State.clearCounters (s : State) (n : Nat) : State :=
  let energy := s.energy.map fun (e : Nat × Nat) => if e.1 / 256 = n then (e.1, 0) else e
  let s : State := { s with energy := energy }
  let s := s.modPage n fun g => { g with counters := [] }
  match pageInfo n with
  | some ⟨.context, _, x⟩ =>
    let f := fun (c : Context) => { c with fullSince := c.fullSince.map fun _ => s.clock }
    { s with host := { s.host with contexts := SMap.mod s.host.contexts x {} f } }
  | some ⟨.fe, i, k⟩ => s.modCl k fun c => { c with fes := SMap.mod c.fes (i - 4) {} fun f => { f with headAt := s.clock } }
  | some ⟨.stream, _, k⟩ => s.modCl k fun c => { c with stream := { c.stream with fullSince := c.stream.fullSince.map fun _ => s.clock } }
  | _ => s

/-- CTR_CLEAR (R40). -/
def execCtrClear (req : Req) (page : BitVec 16) (s : State) : Res :=
  .next (if s.pageOpen req page.toNat then (s.settledFor page.toNat).clearCounters page.toNat else s.offPage req page 0x0C true)

/-- Cycles that counter 3 of a context's page has counted since its completion ring became full (R361, R367), that of a STREAM
page since 32 requests are in flight (R295), and counter 6 of an FE since its head descriptor waits on a tile (R270). -/
def State.fullCycles (s : State) (n c : Nat) : Nat :=
  match pageInfo n, c with
  | some ⟨.context, _, x⟩, 3 => (SMap.getD s.host.contexts x {}).fullSince.elim 0 (s.clock - ·)
  | some ⟨.fe, i, k⟩, 6 => s.tileWait k (i - 4)
  | some ⟨.stream, _, k⟩, 3 => (s.cl k).stream.fullSince.elim 0 (s.clock - ·)
  | _, _ => 0

/-- A counter's value: counter 0 of MTIME is the machine-time counter (R73), and the meters count apart (R416). -/
def State.counterRead (s : State) (n c : Nat) : W64 :=
  if s.isIdlePage n then 0
  else if n = pgMtime ∧ c = 0 then s.mt.counter
  else match SMap.get? s.energy (256 * n + c) with
    | some v => BitVec.ofNat 64 v
    | none => (s.page n).counter c + BitVec.ofNat 64 (s.fullCycles n c)

/-- The low word's read of counter `c`: bits [63:32] go to the requester's snapshot register (R38, R39). -/
def State.snapshot (s : State) (req n c : Nat) : State :=
  let v := s.counterRead n c
  s.modPage n fun g => { g with snapshots := SMap.put g.snapshots req (BitVec.ofNat 32 (v.toNat >>> 32)) }

/-- COUNTER_LOW_READ (R38, R39): bits [31:0] are returned. -/
def execCounterLowRead (req : Req) (page : BitVec 16) (n : BitVec 8) (s : State) : Res :=
  .next (let p := page.toNat
         if s.answers req p then
           let s := s.settledFor p
           (s.snapshot req.val p n.toNat).emit (.readValue req.val (BitVec.ofNat 64 ((s.counterRead p n.toNat).toNat % 2 ^ 32)))
         else (s.offPage req page (0x800 + 8 * n.toNat) false).emit (.readValue req.val 0))

/-- EVENT_FORCE (R41). -/
def execEventForce (req : Req) (page : BitVec 16) (bits : W32) (s : State) : Res :=
  .next (if s.eventOpen req page.toNat then (s.settledFor page.toNat).modPage page.toNat (·.drive s.clock bits)
         else s.offPage req page 0x1C true)

/-- EVENT_LATCH_CLEAR (R41). -/
def execEventLatchClear (req : Req) (page : BitVec 16) (bits : W32) (s : State) : Res :=
  .next (if s.eventOpen req page.toNat then
           ((s.settledFor page.toNat).modPage page.toNat (·.clearLatch s.clock (bits &&& ~~~(s.heldLevel page.toNat)))).lapse page.toNat
         else s.offPage req page 0x18 true)

/-- ERR_CAUSE_CLEAR (R36, R37): writing 1 to VALID clears the register. -/
def execErrCauseClear (req : Req) (page : BitVec 16) (s : State) : Res :=
  .next (if s.eventOpen req page.toNat then (s.settledFor page.toNat).modPage page.toNat (·.clearErr s.clock)
         else s.offPage req page 0x24 true)

/-- The lock groups that a block defines (R508: only CD's group 0). -/
def lockGroups (b : Block) : BitVec 16 := if b = .cd then 1#16 else 0#16

/-- When lock group 0 of a CD page is set again every EN of its probe multiplexers is 0 (R508). -/
def Page.disableProbes (g : Page) : Page :=
  { g with regs := g.regs.map fun r =>
      if 0x100 ≤ r.1 ∧ r.1 < 0x140 then (r.1, r.2 &&& 0x7FFFFFFF#32) else r }

/-- LOCK_WRITE (R35, R474, R475): under presence the groups take the written value, and each clear is logged as action 7. -/
def execLockWrite (req : Req) (page : BitVec 16) (value : W32) (s : State) : Res :=
  .next (let n := page.toNat
         match pageBlock n with
         | none => s.offPage req page 0x20 true
         | some b =>
           if (s.page n).inReset || s.isIdlePage n then s
           else
             let old := (s.page n).lock
             let new := BitVec.ofNat 16 value.toNat &&& lockGroups b
             if new = old then s
             else if !s.custody.present then s.refuseCw req.val n 0x20
             else
               let s := (if b = .cd then s.keepProbes else s).modPage n fun g =>
                 let g := { g with lock := new }
                 if b = .cd && new.toNat.testBit 0 && !old.toNat.testBit 0 then g.disableProbes else g
               if old &&& ~~~new != 0#16 then s.logCustody 7 req.val else s)

/-- TEL_CLEAR (R518). -/
def execTelClear (req : Req) (k : Cl) (j : Fin 32) (s : State) : Res :=
  .next (if s.pageOpen req (pgTelemetry k.val j.val) then
           s.modCl k.val fun c => { c with cores := c.cores.map fun p =>
             if p.1 % 32 = j.val then (p.1, { p.2 with stalls := [] }) else p }
         else s)

end Sys2Proof.Machine
end

