-- ==== Sys2Proof/Machine/Stitch.lean ====
section
/-! DEFINITION. Stitch packets (R320 to R329): the routers' stores and merge notes, combining at a destination, acknowledgements,
and the Stitch unit as a sender. -/
namespace Sys2Proof.Machine

/-! ### The combination (R322) -/

/-- One element: `sop` 0 ADD, 1 MAX, 2 MIN; `stype` 0 FP32, 1 BF16, 2 INT32; *older* op *newer*. -/
def stitchElem (sop stype a b : Nat) : Nat :=
  let op := if sop = 0 then 2 else if sop = 1 then 5 else 6
  if stype = 0 then leLane .fp32 op a b 0
  else if stype = 1 then leLane .bf16 op a b 0
  else if sop = 0 then (a + b) % 2 ^ 32
  else
    let less := decide (signedOf a 32 < signedOf b 32)
    if (sop == 1) == less then b else a

/-- A 32 B word of elements. -/
def stitchWord (sop stype : Nat) (a b : Word256) : Word256 :=
  let bits := if stype = 1 then 16 else 32
  let at_ := fun (w : Word256) i => field w.bits.toNat (bits * i + bits - 1) (bits * i)
  ⟨BitVec.ofNat 256 ((upto (256 / bits)).foldr (fun i n => stitchElem sop stype (at_ a i) (at_ b i) + n * 2 ^ bits) 0),
    a.poison || b.poison⟩

/-- Words combined in order. -/
def stitchWords (p : Packet) (old new : List Word256) : List Word256 :=
  (old.zip new).map fun x => stitchWord p.sop.toNat p.stype.toNat x.1 x.2

/-! ### The store of a router (R320, R321) -/

/-- Whether two Stitch packets have one key (R320). -/
def sameKey (a b : Packet) : Bool :=
  a.dmod == b.dmod && a.dest == b.dest && a.addr == b.addr && a.ctx == b.ctx && a.rtag == b.rtag && a.sop == b.sop
    && a.stype == b.stype && dataFlits a == dataFlits b

/-- The source that an acknowledgement of a packet goes to. -/
def ackTarget (p : Packet) : AckTarget := ⟨p.src, p.smod, p.tag⟩

/-- A merged packet: *older* with *newer*, from note `n` of router `r` (R321, R322). -/
def mergePackets (r n : Nat) (own : BitVec 14) (a b : Packet) : Packet :=
  let ws := stitchWords a (wordsOf a) (wordsOf b)
  { a with count := a.count + b.count, src := epNote r n, smod := own, tag := 0, prio := a.prio || b.prio,
           data := ws.map (·.bits), wordPoison := a.wordPoison ||| b.wordPoison }

/-- The lowest-numbered free note of a router. -/
def RouterState.freeNote (x : RouterState) : Option Nat := firstSome (fun n => (SMap.get? x.notes n).isNone) (upto 32)

/-- The older packet with which a stored packet merges, a note apart (R321). -/
def mergePartner (older : List StitchHeld) (h : StitchHeld) (now : Nat) : Option StitchHeld :=
  firstSome (fun o => sameKey o.packet h.packet && decide (o.packet.count.toNat + h.packet.count.toNat ≤ 65535)
    && decide (o.entered ≤ now)) older

/-- A stored packet looks for its older partner: the merge stands 6 cycles later (R321). -/
def State.tryMerge (s : State) (r : Nat) (h : StitchHeld) : State :=
  let x := s.router r
  match mergePartner (x.store.takeWhile (· != h)) h s.clock with
  | none => s
  | some o =>
    if !s.combineEn r then s
    else match x.freeNote with
      | none => (s.count (pgRouter r) 49 1).pulse (pgRouter r) 1
      | some n =>
        let m : StitchHeld := { packet := mergePackets r n s.moduleId o.packet h.packet, input := o.input,
                                entered := s.clock + 6, merged := true, free := true }
        (s.modRouter r fun x =>
          { x with store := (listErase x.store h).map fun y => if y = o then m else y,
                   notes := SMap.put x.notes n (ackTarget o.packet, ackTarget h.packet) }).count (pgRouter r) 48 1

/-- A Stitch packet taken out of a router's input buffers when it has arrived whole, with its input and the cycle of its tail. -/
def RouterState.takeStitch (x : RouterState) (p : Packet) : Option (HeldPacket × Nat) :=
  match firstSome (fun h => h.packet == p && h.got == flitsOf p && h.sent == 0 && !h.stored) x.held with
  | some h => some (h, h.flits.foldl max 0)
  | none => none

/-- STITCH (R321): a header in error is found at its input (R315); a packet enters the store in the cycle after its tail arrives, and looks for a partner. -/
def execStitch (r : Fin 322) (p : Packet) (s : State) : Res :=
  .next (let r := r.val
         let x := s.router r
         match firstSome (fun h => h.packet == p && h.packet.badHeader) x.held with
         | some h => s.headerError r h
         | none =>
         if 16 ≤ x.store.length then s
         else
           let (s, input) := match x.takeStitch p with
             | some (h, tail) =>
               (((s.reachClock (tail + 1)).modRouter r fun x => { x with held := listErase x.held h }).fillPort r h.input, h.input)
             | none => (s, 4)
           let h : StitchHeld := { packet := p, input := input, entered := s.clock }
           (s.modRouter r fun x => { x with store := x.store ++ [h] }).tryMerge r h)

/-- STITCH_HOLD_EXPIRY (R321): the oldest packet still held may leave once its hold has passed. -/
def execStitchHoldExpiry (r : Fin 322) (s : State) : Res :=
  .next (let r := r.val
         match firstSome (fun h => !h.free) (s.router r).store with
         | none => s
         | some h =>
           let s := s.reachClock (h.entered + s.stitchHold r)
           s.modRouter r fun x => { x with store := x.store.map fun y => if y = h then { y with free := true } else y })

/-! ### Combining at the destination (R324, R325) -/

/-- Words of a row from byte `b`, replaced. -/
def Row.putWords (w : Row) (b : Nat) (ws : List Word256) : Row :=
  ws.zipIdx.foldl (fun (r : Row) x =>
    let lo := 8 * (b + 32 * x.2)
    let bit := BitVec.ofNat 16 (2 ^ (b / 32 + x.2))
    { data := BitVec.ofNat 4096 (setField r.data.toNat (lo + 255) lo x.1.bits.toNat)
      poison := if x.1.poison then r.poison ||| bit else r.poison &&& ~~~bit }) w

/-- Time passes until requester `key` of cluster `k` has moved its burst number `n`, for at most `fuel` changes at the arbiter. -/
def State.waitMoved (k key n : Nat) : (fuel : Nat) → State → State
  | 0, s => s
  | fuel + 1, s =>
    let s := s.settleArb k
    match (s.cl k).arb.movedAt key n with
    | some t => s.reachClock t
    | none => State.waitMoved k key n fuel (s.advance 1)

/-- Requester 13's read-for-write of a row and its write, 6 cycles after the read (R212, R324); time passes up to the write. -/
def State.combinePass (s : State) (k row : Nat) : State :=
  let n := (s.cl k).arb.ticket 13
  let s := s.askRows k 13 [{ spans := [(row, 1)], readForWrite := true, ready := s.clock },
                           { spans := [(row, 1)], write := true, ready := s.clock, gap := 5 }]
  State.waitMoved k 13 (n + 2) 256 s

/-- A Stitch packet for a row-memory window (R324); the acknowledgement follows in the cycle after the write. -/
def State.combineRow (s : State) (p : Packet) (k row byte : Nat) : State × Nat :=
  let c := s.cl k
  match c.remoteHandle row 1 with
  | some _ =>
    if s.ownerOf k ≠ some p.ctx.toNat then (s.refuseRemote k, 0x83)
    else
      let s := s.combinePass k row
      let c := s.cl k
      let old := ((c.row k row).words.drop (byte / 32)).take p.data.length
      let s := s.modCl k fun c => c.setRow row ((c.row k row).putWords byte (stitchWords p old (wordsOf p)))
      (((s.charge (pgRowmem k) p.ctx.toNat 16 (32 * p.data.length)).active k).advance 1, 0)
  | none => (s.refuseRemote k, 0x83)

/-- A Stitch packet for HBM3E (R325): combined through the reuse cache of the address's die. -/
def State.combineMem (s : State) (p : Packet) (stack loc : Nat) : State × Nat :=
  let d := stack / 3
  let x := p.ctx.toNat
  let n := p.data.length
  let st := s.memStatus x p.addr.toNat true
  if st ≠ 0 then ((s.count (pgMstitch d) 2 1).pulse (pgMstitch d) 1, st)
  else
    let a := homeOf stack loc
    let old := (upto n).map fun i => s.mem.word (a + 32 * i)
    let s := (s.lookUp stack loc n p.hint.toNat true).1
    let s := { s with mem := s.mem.putWords a (stitchWords p old (wordsOf p)) none }
    (((s.count (pgMstitch d) 0 1).count (pgMstitch d) 1 n).charge (pgMsd d) x 10 (32 * n), 0)

/-- A Stitch packet combined where its address leads: the state and the status. -/
def State.combine (s : State) (p : Packet) : State × Nat :=
  match placeOf p.addr.toNat with
  | .rowWindow k row byte => s.combineRow p k row byte
  | .hbm stack loc => s.combineMem p stack loc
  | _ => (s, 0x80)

/-- STITCH_COMBINE (R323 to R325): the destination combines the packet and acknowledges it. -/
def execStitchCombine (p : Packet) (s : State) : Res :=
  .next (let r := (s.receive p).combine p
         r.1.inject (answer p 0x21 r.2))

/-! ### The Stitch unit as a sender (R327, R328) -/

def snSop (w : Nat) : Nat := field w 251 250
def snType (w : Nat) : Nat := field w 249 248
/-- Payload bytes. -/
def snBytes (w : Nat) : Nat := 64 * 2 ^ field w 247 246
def snSrc (w : Nat) : Nat := field w 231 226
def snRow0 (w : Nat) : Nat := field w 225 213
def snSegs (w : Nat) : Nat := field w 181 160
def snAddr (w : Nat) : Nat := field w 159 112

/-- The checks at a descriptor's start (R228, R328). -/
def ClusterState.snOk (c : ClusterState) (w : Nat) : Bool :=
  let h := c.handle (snSrc w)
  field w 255 252 == 1 && snSop w != 3 && snType w != 3 && field w 247 246 != 3 && field w 111 110 != 3 && snSegs w != 0
    && snAddr w % snBytes w == 0 && field w 63 0 == 0 && field w 109 96 == 0
    && (!bitAt w 245 || (c.handle (field w 243 238)).valid) && (!bitAt w 244 || (c.handle (field w 237 232)).valid)
    && h.valid && !h.isRing && decide (snRow0 w + (snSegs w * snBytes w + 511) / 512 ≤ h.length)

/-- The destination endpoint of a Stitch packet (R320, R324, R325). -/
def stitchEndpoint (a : Nat) : BitVec 16 :=
  match placeOf a with
  | .rowWindow k _ _ => epCluster k 4
  | .hbm stack _ => epMem (stack / 3) 1
  | .lpddr pkg _ => epIo (pkg / 8) (13 + pkg % 8)
  | .host _ => epIo 0 12
  | .unassigned => epIo 0 11

/-- The source row of segment `i`: the one that the unit holds, or read now as requester 13, once (R328). -/
def State.stitchSource (s : State) (k w i : Nat) : State × Row :=
  let c := s.cl k
  let n := i * snBytes w / 512
  let at_ := (c.handle (snSrc w)).baseRow + snRow0 w + n
  match c.stitchRow with
  | some (m, row) => if m = n then (s, row) else (fetch s n at_)
  | none => fetch s n at_
where
  /-- Row `at_`, number `n` of the descriptor, is read. -/
  fetch (s : State) (n at_ : Nat) : State × Row :=
    let row := (s.cl k).row k at_
    ((s.traffic k 13 at_ 1 false).modCl k fun c => { c with stitchRow := some (n, row) }, row)

/-- Segment `i` of a descriptor as a packet, out of its source row. -/
def State.stitchPacket (s : State) (k w i tag : Nat) (row : Row) : Packet :=
  let b := i * snBytes w
  let ws := (row.words.drop (b % 512 / 32)).take (snBytes w / 32)
  let a := (snAddr w + b) % 2 ^ 48
  { opcode := 0x20, prio := s.taskLc k, ctx := BitVec.ofNat 6 (s.taskCtx k), dest := stitchEndpoint a, src := epCluster k 4,
    tag := BitVec.ofNat 10 tag, dmod := if bitAt w 182 then BitVec.ofNat 14 (field w 196 183) else s.moduleId,
    smod := s.moduleId, hint := BitVec.ofNat 2 (field w 111 110), addr := BitVec.ofNat 48 a,
    rtag := BitVec.ofNat 16 (field w 212 197), count := 1, sop := BitVec.ofNat 2 (snSop w), stype := BitVec.ofNat 2 (snType w),
    wordPoison := BitVec.ofNat 64 (ws.foldr (fun x n => 2 * n + ofBool x.poison) 0), data := ws.map (·.bits) }

/-- The first transaction number that no unacknowledged packet of the unit has. -/
def ClusterState.stitchTag (c : ClusterState) : Nat :=
  (firstSome (fun t => !c.stitchOut.any (·.tag == t)) (upto 1024)).getD 0

/-- Segments sent while fewer than 64 packets are unacknowledged (R328). -/
def State.sendSegments (k w : Nat) : (fuel : Nat) → State → State
  | 0, s => s
  | fuel + 1, s =>
    let c := s.cl k
    let i := c.stitchList.record
    if snSegs w ≤ i ∨ 64 ≤ c.stitchOut.length then s
    else
      let tag := c.stitchTag
      let (s, row) := s.stitchSource k w i
      let p := s.stitchPacket k w i tag row
      let s := s.modCl k fun c => { c with stitchOut := c.stitchOut ++ [⟨tag, p, i, s.clock⟩],
                                           stitchList := { c.stitchList with record := i + 1 } }
      State.sendSegments k w fuel (s.inject p)

/-- The Stitch list changed. -/
def State.modStitch (s : State) (k : Nat) (f : ListRun → ListRun) : State :=
  s.modCl k fun c => { c with stitchList := f c.stitchList }

/-- A descriptor is done when every segment has been sent and acknowledged; its signal is given (R327, R328). -/
def State.stitchDone (s : State) (k : Nat) : State :=
  let c := s.cl k
  match c.stitchDesc with
  | none => s
  | some d =>
    let w := d.toNat
    if c.stitchList.record < snSegs w ∨ !c.stitchOut.isEmpty then s
    else
      let s := s.modCl k fun c => { c with stitchDesc := none, stitchRow := none }
      let s := s.modStitch k fun l => { l with pos := l.pos + 32, record := 0, ended := decide (l.len ≤ l.pos + 32) }
      if bitAt w 244 then s.arrive k (field w 237 232) false else s

/-- SEND (R328): the next descriptor of the Stitch list starts, or its next segments leave. -/
def execSend (k : Cl) (s : State) : Res :=
  .next (let k := k.val
         let c := s.cl k
         let l := c.stitchList
         let refused := fun (s : State) => (s.modStitch k fun l => { l with ended := true }).refuseDesc k 5 0 1 l.pos
         if s.halts k then s
         else match c.stitchDesc with
           | some d =>
             let t := State.sendSegments k d.toNat 64 s
             if (t.cl k).stitchList.record = l.record then t else t.active k
           | none =>
             if l.ended then s
             else if l.len < l.pos + 32 then refused s
             else
               let f := (s.unseal k).fetchBytes (s.taskCtx k) 0 (l.addr + l.pos) 32
               match s.listFault k f with
               | some t => t.modStitch k fun l => { l with ended := true }
               | none =>
                 let w := ofBytes (f.bytes.map (·.1))
                 if !c.snOk w then refused f.s
                 else if !c.waitMet (bitAt w 245) (field w 243 238) (field w 95 64) then s
                 else
                   let s := f.s.modCl k fun c => { c with stitchDesc := some (BitVec.ofNat 256 w) }
                   (State.sendSegments k w 64 s).active k)

/-! ### Acknowledgements (R323) -/

/-- An acknowledgement of a note to one of its recorded sources. -/
def noteAck (p : Packet) (t : AckTarget) : Packet :=
  { p with dest := t.src, dmod := t.smod, tag := t.tag, src := p.dest, smod := p.dmod }

/-- A note splits an acknowledgement and frees; a packet that waited for a note may then merge. -/
def State.splitAck (s : State) (p : Packet) (r n : Nat) : State :=
  match SMap.get? (s.router r).notes n with
  | none => s
  | some (a, b) =>
    let s := (s.modRouter r fun x => { x with notes := SMap.del x.notes n }).count (pgRouter r) 51 1
    let s := (s.injectAt r 4 (noteAck p a)).injectAt r 4 (noteAck p b)
    let x := s.router r
    match firstSome (fun h => (mergePartner (x.store.takeWhile (· != h)) h s.clock).isSome) x.store with
    | some h => s.tryMerge r h
    | none => s

/-- A memory fault of the Stitch unit (R285, R328): its descriptor is not done, and its list goes no further. -/
def State.stitchFault (s : State) (k code addr : Nat) : State :=
  let s := s.modCl k fun c => { c with stitchDesc := none, stitchRow := none, stitchList := { c.stitchList with ended := true } }
  s.memoryFault k (pgClCtrl k) 5 0 code addr

/-- The Stitch unit of cluster `k` receives an acknowledgement (R328). -/
def State.unitAck (s : State) (p : Packet) (k : Nat) : State :=
  match firstSome (fun o => o.tag == p.tag.toNat) (s.cl k).stitchOut with
  | none => s
  | some o =>
    let s := s.modCl k fun c => { c with stitchOut := listErase c.stitchOut o }
    if p.status ≠ 0 then s.stitchFault k p.status.toNat o.packet.addr.toNat
    else s.stitchDone k

/-- The cycle in which a request issued in cycle `t` is abandoned: after 16 beats, or 256 for host memory (R6, R285). -/
def State.abandonAt (s : State) (t : Nat) (host : Bool) : Nat := s.limitAt t 4096 (if host then 256 else 16)

/-- The answer to request `tag` of unit `u` of cluster `k` stays out; unit 4 is the Stitch unit (R314, R328). -/
def State.requestLost (s : State) (k u : Nat) (tag : BitVec 10) : State :=
  if u = 4 then
    match firstSome (fun o => o.tag == tag.toNat) (s.cl k).stitchOut with
    | none => s
    | some o =>
      let s := s.reachClock (s.abandonAt o.sent false)
      let s := s.modCl k fun c => { c with stitchOut := listErase c.stitchOut o }
      s.stitchFault k 0x85 o.packet.addr.toNat
  else match s.outstandingOf k u tag with
    | none => s
    | some o =>
      let s := s.reachClock (s.abandonAt o.issued o.host)
      (s.dropRequest k o).streamFault k o.slot 0x85 o.addr

/-- A cluster's list: 0 work, 1 Stitch, 2 cinch. -/
def ClusterState.list (c : ClusterState) (l : Nat) : ListRun :=
  if l = 0 then c.work else if l = 1 then c.stitchList else c.cinchList

/-- A list goes no further. -/
def ClusterState.endList (c : ClusterState) (l : Nat) : ClusterState :=
  let ended := fun (x : ListRun) => { x with ended := true }
  if l = 0 then { c with work := ended c.work } else if l = 1 then { c with stitchList := ended c.stitchList }
  else { c with cinchList := ended c.cinchList }

/-- The fetch of the next record of a list has no answer (R285). -/
def State.listLost (s : State) (k l : Nat) : State :=
  let c := s.cl k
  let x := c.list l
  let a := x.addr + x.pos
  if c.stopped || x.ended || (l == 1 && c.stitchDesc.isSome) then s
  else
    let s := s.reachClock (s.abandonAt s.clock (bitAt a 47))
    (s.modCl k (·.endList l)).memoryFault k (pgClCtrl k) 7 0 0x85 a

/-- REQUEST_TIMEOUT (R285): a request has no answer within 16 beats, or 256 for host memory. -/
def execRequestTimeout (k : Cl) (site : TimeoutSite) (s : State) : Res :=
  .next (match site with
    | .request u tag => s.requestLost k.val u.val tag
    | .element n => s.gatherTimeout k.val n.toNat
    | .list l => s.listLost k.val l.val)

/-- STITCH_ACK (R323): at a note, or at the sender. -/
def execStitchAck (p : Packet) (s : State) : Res :=
  .next (let s := s.receive p
         if epKind p.dest = 3 then s.splitAck p (epNumber p.dest) (epNoteNumber p.dest)
         else if epKind p.dest = 0 then s.unitAck p (epNumber p.dest)
         else s)

end Sys2Proof.Machine
end

