-- ==== Sys2Proof/Machine/Tasks.lean ====
section
/-! DEFINITION. Tasks (R378, R386 to R402, R297): RUN_TASK, the order of grants, starts, stops and ends, limits, holds, and the
affinity probe. -/
namespace Sys2Proof.Machine

/-! ### The task table (R378) -/

def ttWorkAddr (w : Nat) : Nat := field w 47 0
def ttWorkLen (w : Nat) : Nat := field w 95 64
def ttStitchAddr (w : Nat) : Nat := field w 175 128
def ttStitchLen (w : Nat) : Nat := field w 223 192
def ttCinchAddr (w : Nat) : Nat := field w 303 256
def ttCinchLen (w : Nat) : Nat := field w 351 320

/-- The fields of an entry. -/
def ttFields : List (Nat × Nat) :=
  [(47, 0), (95, 64), (175, 128), (223, 192), (303, 256), (351, 320), (391, 384), (927, 416)]

/-- Whether an ARB_REQ word is legal (R223): PORT_MASK of wide requesters is ignored. -/
def arbWordOk (w r : Nat) : Bool :=
  field w 31 26 == 0 && field w 23 17 == 0 && (isWideReq r || field w 25 24 != 0)

/-- Whether an entry is good (R378). -/
def ttOk (w : Nat) : Bool :=
  onlyFields w ttFields && decide (8 ≤ ttWorkLen w) && ttWorkLen w % 8 == 0 && ttStitchLen w % 32 == 0 && ttCinchLen w % 32 == 0
    && (upto 2).all (fun n => ttWin w n == 0 || decide (4 ≤ ttWin w n)) && field (ttRouter w) 31 9 == 0
    && (upto 15).all fun r => arbWordOk (ttArb w r) r

/-- What reading a table answers. -/
inductive TableRead where
  | good (s : State) (entries : List (BitVec 1024))
  /-- RUN_TASK completes with this, and nothing starts. -/
  | bad (s : State) (e : Ending)

/-- Variant `n` of the table at `table` is read for the clusters `ks` of context `x` (R378, R389, R400, R481). -/
def State.readTable (s : State) (x table n : Nat) (ks : List Nat) : TableRead :=
  let f := s.fetchBytes x 0 (table + 128 * ks.length * n) (128 * ks.length)
  let page := pgDispatch (s.serving x)
  let fault := fun (s : State) => ks.headD 0 |> s.markFault
  if f.status ≠ 0 then
    .bad (fault (f.s.report page 2 f.status 0)) { status := stMemoryFault, value := f.fault, code := f.status, list := 3, cluster := ks.headD 0 }
  else if f.bytes.any (·.2) then
    .bad (fault (f.s.report page 2 0xD3 0)) { status := stUncontained, code := 0xD3, list := 3, cluster := ks.headD 0 }
  else
    let es := (upto ks.length).map fun i => ofBytes (((f.bytes.drop (128 * i)).take 128).map (·.1))
    match firstSome (fun p => !ttOk p.1) es.zipIdx with
    | some p => .bad f.s { status := stDescriptorInvalid, value := 128 * p.2, list := 3, cluster := ks.getD p.2 0 }
    | none => .good f.s (es.map (BitVec.ofNat 1024 ·))

/-- A region's task changed. -/
def State.modTask (s : State) (r : Nat) (f : Task → Task) : State := s.modRegion r fun g => { g with task := g.task.map f }

/-- A task that has not started is dropped with a record. -/
def State.refuseTask (s : State) (r : Nat) (e : Ending) : State :=
  match (s.region r).task with
  | none => s
  | some t => ((s.unbook r).modRegion r fun g => { g with task := none }).completeFault t.ctx t.seq e

/-- RUN_TASK (R374, R389 step 1): the command's task becomes a candidate. -/
def execRunTask (x : Ctx) (seq : W32) (s : State) : Res :=
  .next (match s.startCmd x.val seq 4 with
    | none => s
    | some (d, s) =>
      let r := dRegion d
      let g := s.region r
      if !s.owns x.val r then s.completeFault x.val seq { status := stNotOwner }
      else if g.state ≠ .loaded ∨ g.task.isSome then s.completeFault x.val seq { status := stIllegal }
      else
        let t : Task :=
          { ctx := x.val, seq := seq, lc := bitAt d 112, peak := field d 143 128, mean := field d 159 144,
            notBefore := BitVec.ofNat 48 (field d 207 160), serve := dServe d, serveArg := BitVec.ofNat 32 (field d 255 224),
            table := dImage d, since := s.beat }
        let s := (s.loseRows g.clusters).modRegion r fun g => { g with task := some t }
        if t.serve then s
        else match s.readTable x.val t.table 0 g.clusters with
          | .bad s e => s.refuseTask r e
          | .good s es => s.modTask r fun t => { t with entries := es })

/-! ### The order of requests (R394, R400, R401) -/

/-- Whether a context holds its tasks (R396). -/
def State.held (s : State) (x : Nat) : Bool := bitAt (s.regOf (pgContext x) 0xC0) 31

/-- Candidates that wait for a request, with their regions. -/
def State.taskCandidates (s : State) : List (Nat × Task) :=
  s.regions.filterMap fun r => match r.2.task with
    | some t => if t.phase = .candidate ∧ !s.held t.ctx then some (r.1, t) else none
    | none => none

/-- Whether an LC task waits for its start beat (R394). -/
def State.lcWaits (s : State) : Bool :=
  s.regions.any fun r => r.2.task.any fun t => t.lc && !t.started && !(t.phase == .candidate && s.held t.ctx)

/-- Whether `a` goes before `b` (R394). -/
def taskBefore (now : BitVec 48) (a b : Task) : Bool :=
  if a.lc != b.lc then a.lc
  else if a.since ≠ b.since then decide (beatKey now a.since < beatKey now b.since)
  else decide (a.ctx < b.ctx)

/-- The candidate whose request is due. -/
def State.nextCandidate (s : State) : Option (Nat × Task) :=
  let c := s.taskCandidates.foldl (fun best p => match best with
    | none => some p
    | some q => if taskBefore s.beat p.2 q.2 then some p else some q) none
  c.filter fun p => p.2.lc || !s.lcWaits

def svChunkW (a : Nat) : Nat := 64 * field a 31 28
def svChunkBeats (a : Nat) : Nat := field a 27 16
def svDecodeBeats (a : Nat) : Nat := field a 15 4
def svChunksMax (a : Nat) : Nat := a % 16

/-- The chunk count of a serving step (R401). -/
def chooseChunks (peak chunkW headroom : Nat) : Nat → Nat
  | 0 => 0
  | n + 1 => if headroom < peak + (n + 1) * chunkW then chooseChunks peak chunkW headroom n else n + 1

/-- The chunk count that a task is given now. -/
def State.chunksOf (s : State) (t : Task) : Nat :=
  let a := t.serveArg.toNat
  if !t.serve then 0
  else chooseChunks t.peak (svChunkW a) s.headroom (min (svChunksMax a) (svDecodeBeats a / max 1 (svChunkBeats a)))

/-- The request of a candidate is sent. -/
def State.ask (s : State) (r : Nat) (t : Task) (n : Nat) : State :=
  let w := n * svChunkW t.serveArg.toNat
  let q : GrantRequest :=
    { ctx := t.ctx, region := r, peak := t.peak + w, mean := t.mean + w, notBefore := t.notBefore, lc := t.lc }
  (s.modTask r fun t => { t with phase := .asked, chunks := n }).modBridle fun b => { b with request := some q }

/-- GRANT_REQUEST (R389 step 2, R394, R401): the next candidate's request goes to the Bridle. -/
def execGrantRequest (s : State) : Res :=
  .next (if s.bridle.request.isSome then s
         else match s.nextCandidate with
           | none => s
           | some (r, t) =>
             if !t.serve then s.ask r t 0
             else
               let n := s.chunksOf t
               match s.readTable t.ctx t.table n (s.region r).clusters with
               | .bad s e => s.refuseTask r e
               | .good s es => (s.modTask r fun t => { t with entries := es }).ask r t n)

/-! ### The grant (R389 step 3, R420) -/

/-- The arbiter and router settings of a cluster, from its entry (R378). -/
def State.applySettings (s : State) (k w : Nat) : State :=
  (taskSettings k w).foldl (fun s x => s.setReg x.1 x.2.1 x.2.2) (s.settleArb k)

/-- The argument of a TASK_START entry (R390). -/
def startArg (t : Task) : W32 := BitVec.ofNat 32 (t.ctx + ofBool t.lc <<< 6)

/-- The grant for beat `b` reaches Lovage now: start beat, settings, calendar entries (R389 step 3). -/
def State.takeGrant (s : State) (r : Nat) (q : GrantRequest) (b : BitVec 48) : State :=
  let g := s.region r
  let start := laterBeat (laterBeat b (s.beat + 3#48)) (if q.notBefore = 0 then b else q.notBefore)
  match g.task with
  | none => s
  | some t =>
    let s := s.modBridle fun x =>
      { x with request := none, bookings := x.bookings.map fun y => if y.region = r then { y with start := start } else y }
    let s := s.modTask r fun t => { t with phase := .granted, start := start, peak := q.peak, mean := q.mean }
    g.clusters.zipIdx.foldl (fun s p =>
      let s := s.applySettings p.1 (t.entries.getD p.2 0).toNat
      s.setCal (pgClCtrl p.1) (s.cal (pgClCtrl p.1) ++ [⟨3, startArg t, 0, 0, start⟩])) s

/-- GRANT_ARRIVAL (R389, R420): the outstanding request is considered in the present beat; a grant reaches Lovage. -/
def execGrantArrival (s : State) : Res :=
  .next (match s.bridle.request with
    | none => s
    | some q => match q.granted with
      | some b => s.takeGrant q.region q b
      | none => match s.consider q with
        | .wait => s
        | .forecast level => s.wantForecast level
        | .grant b =>
          let s := if s.bridle.fcPending then s.dropForecast else s
          (s.bookGrant q b false).takeGrant q.region q b)

/-! ### Withdrawal and hold (R395, R396) -/

/-- A granted task whose start lies at least 3 beats ahead, or one whose request is outstanding, becomes a candidate again. -/
def State.withdraw (s : State) (r : Nat) (t : Task) : State :=
  let far := (t.start - s.beat).toNat < 2 ^ 47 ∧ 3 ≤ (t.start - s.beat).toNat
  if t.started || !(t.phase == .asked || (t.phase == .granted && decide far)) then s
  else
    let s := (s.unpost (s.region r).clusters fun e => e.action == 3 && e.beat == t.start).unbook r
    let s := s.modTask r fun t =>
      let w := t.chunks * svChunkW t.serveArg.toNat
      let back := if t.phase = .granted then w else 0
      { t with phase := .candidate, peak := t.peak - back, mean := t.mean - back, chunks := 0 }
    if t.lc then s else s.count (pgContext t.ctx) 20 1

/-- Tasks of all regions for which `p` holds are withdrawn. -/
def State.withdrawAll (s : State) (p : Task → Bool) : State :=
  s.regions.foldl (fun s r => match r.2.task with
    | some t => if p t then s.withdraw r.1 t else s
    | none => s) s

/-- BE_WITHDRAW (R395): in the beat in which an LC candidate appears. -/
def execBeWithdraw (s : State) : Res :=
  .next (if s.taskCandidates.any fun p => p.2.lc then s.withdrawAll fun t => !t.lc else s)

/-- HOLD (R395, R396): SCHED_CTRL.HOLD is written. -/
def execHold (req : Req) (x : Ctx) (on : Bool) (s : State) : Res :=
  .next (let n := pgContext x.val
         if !s.pageOpen req n then s
         else
           let s := s.setReg n 0xC0 (setField (s.regOf n 0xC0) 31 31 (ofBool on))
           if on then s.withdrawAll fun t => t.ctx == x.val else s)

/-! ### TASK_START (R149, R183, R196, R235, R390) -/

/-- The schedule's entries armed from beat `b` (R196, R199). -/
def ClusterState.arm (c : ClusterState) (b : BitVec 48) : List ArmedSwitch :=
  c.schedule.filterMap fun e =>
    let w := e.toNat
    if field w 127 120 = 1 then
      some ⟨b + BitVec.ofNat 48 (field w 47 0), field w 50 48, field w 111 96, field w 95 80⟩
    else none

/-- A list given to a task. -/
def listRun (addr len : Nat) : ListRun := { addr := addr, len := len, ended := len == 0 }

/-- The notifiers at a task's start (R235). -/
def ClusterState.startNotifiers (c : ClusterState) : SMap Notifier :=
  c.handles.filterMap fun h =>
    if h.2.valid && h.2.step != 0 then
      let x := c.core h.2.noteCore
      some (h.1, { credit := cwCred (x.word h.2.noteFold) h.2.noteQueue - x.held h.2.noteQueue h.2.noteFold })
    else none

/-- A cluster at the start of a task in beat `b`, its table entry `w` (R104, R171, R186, R196, R228, R265, R390). -/
def ClusterState.start (c : ClusterState) (b : BitVec 48) (w clock free : Nat) : ClusterState :=
  let c := c.startReset clock free
  let moves := c.activeFold != c.initFold
  { c with
    activeFold := c.initFold, bubbleEnd := if moves then clock + 16 else c.bubbleEnd, armed := c.arm b
    arrivals := [], rings := [], ringWaiters := [], ringSeen := [], notifiers := c.startNotifiers
    work := listRun (ttWorkAddr w) (ttWorkLen w), stitchList := listRun (ttStitchAddr w) (ttStitchLen w)
    cinchList := listRun (ttCinchAddr w) (ttCinchLen w)
    doneRecords := [], stitchDesc := none, stitchRow := none, stitchOut := [], retries := [], cinchOps := [], barriers := [], watchedVids := []
    heldWakes := [], outstanding := [], fullShares := [], emptyShares := [], idleBeats := 0, stopped := false
    lateTokens := 0, cores := SMap.mapAll c.cores fun x => { x with stalls := [] } }

/-- The first start check that a cluster fails: gang sequencer, port engine, sequencer (R149, R183, R235, R296). -/
def ClusterState.startFault (c : ClusterState) (k : Nat) : Option Ending :=
  let e : Ending := { status := stDescriptorInvalid, list := 3, cluster := k }
  match c.gangFault with
  | some f => some { e with engine := 8, part := f }
  | none => match c.slackFault with
    | some (n, f) => some { e with engine := 9, row := n / 32, col := n % 32, slot := f }
    | none => if c.noteFault then some { e with engine := 7 } else none

/-- A cluster stops as step 2 of R297 says: pending descriptors are discarded, lists go no further. -/
def ClusterState.stop (c : ClusterState) : ClusterState :=
  let ended := fun (l : ListRun) => { l with ended := true }
  { c with
    stopped := true, fillCopy := c.fillCopy.filter (·.poster.isSome), awl := { c.awl with queue := [] }
    fes := SMap.mapAll c.fes fun f => { f with queue := [], running := [] }
    stream := { c.stream with queue := [], slots := SMap.mapAll c.stream.slots (·.clear) }, lacing := {}
    work := ended c.work, stitchList := ended c.stitchList, cinchList := ended c.cinchList, stitchDesc := none }

/-- Clusters stop (R297): their engines present no more reads of row memory; writes whose rows they hold go on. -/
def State.stopClusters (s : State) (ks : List Nat) : State :=
  ks.foldl (fun s k => ((s.countTileWaits k).dropRequests k [4, 5, 6, 7, 8, 9, 10, 13] false).modCl k (·.stop)) s

/-- One cluster at a task's start. -/
def State.startCluster (s : State) (k : Nat) (w : Nat) : State :=
  let moves := (s.cl k).activeFold != (s.cl k).initFold
  let r := s.freshN 16
  let s := r.2.modCl k fun c =>
    { c.start r.2.beat w r.2.clock r.1 with limiter := if r.2.bridle.limiting then r.2.limiterFall {} else {} }
  (if moves then s.count (pgClCtrl k) 51 1 else s).active k

/-- The task counters and SERVE_LAST at a start (R397, R402, R403, R428). -/
def State.countStart (s : State) (t : Task) : State :=
  let n := pgContext t.ctx
  let s := (s.count n 17 (s.beat - t.since).toNat).count n (if t.lc then 18 else 19) 1
  let s := if t.serve then s.setReg n 0xC8 ((t.seq.toNat % 2 ^ 24) <<< 8 + t.chunks) else s
  if 200 < t.peak then s.count pgBridle 3 1 else s

/-- The limit of a task that starts now (R393). -/
def State.limitOf (s : State) (t : Task) : Nat :=
  let w := s.regOf (pgContext t.ctx) 0xC0
  if t.lc then field w 12 8 else field w 4 0

/-- TASK_START (R390, step 4 of R25). A region that has gone FAULTED since (R480) starts nothing, and the command meets its state. -/
def execTaskStart (r : Rg) (s : State) : Res :=
  .next (let g := s.region r.val
         match g.task with
         | none => s
         | some t =>
           if t.phase ≠ .granted ∨ t.started ∨ !s.inOrder t.start (actionRank 3) then s
           else
             let s := (s.reachBeat t.start).unpost g.clusters fun e => e.action == 3 && e.beat == t.start
             if g.state ≠ .loaded then s.refuseTask r.val { status := stIllegal, cluster := g.clusters.headD 0 } else
             let s := (g.clusters.zipIdx.foldl (fun s p => s.startCluster p.1 (t.entries.getD p.2 0).toNat) s).seamGrants g.clusters
             let fail := g.clusters.findSome? fun k => (s.cl k).startFault k
             let t' := { t with started := true, phase := .running, start := s.beat, startBeats := s.beats, limit := s.limitOf t }
             let s := (s.modRegion r.val fun g => { g with state := .running, task := some t' }).countStart t
             let s := (s.settleAll g.clusters).regrade
             match fail with
             | none => s
             | some e =>
               (s.stopClusters g.clusters).modTask r.val fun t => t.endWith s.beat e)

/-! ### Stops and ends (R297, R347, R392, R393) -/

/-- TASK_STOP (R297 step 2): the beat boundary after the terminating event. -/
def execTaskStop (r : Rg) (s : State) : Res :=
  .next (let g := s.region r.val
         match g.task with
         | none => s
         | some t =>
           if !t.started || t.stopped || t.ending.isNone then s
           else
             let s := s.reachBeat (t.endBeat + 1#48)
             (s.stopClusters g.clusters).modTask r.val fun t => { t with stopped := true, phase := .stopping })

/-- Late tokens of the region's task. -/
def State.lateOf (s : State) (ks : List Nat) : Nat := ks.foldl (fun n k => n + (s.cl k).lateTokens) 0

/-- What every cluster does at its task's end (R347, R392). -/
def State.endCluster (s : State) (k : Nat) : State := (s.endCinches k).modCl k fun c => { c with armed := [], stopped := false }

/-- The task of region `r` ends now; the region goes on in state `st`. -/
def State.finishTask (s : State) (r : Nat) (t : Task) (st : RegionState) : State :=
  let g := s.region r
  let s := if s.now % 4096 = 0 then s else { s with pages := s.regionBeat s.pages g }
  let s := g.clusters.foldl (fun s k => s.endCluster k) s
  let s := ((s.unbook r).count (pgContext t.ctx) 6 1).modRegion r fun g =>
    { g with state := st, task := none, clearing := g.clearing.map fun c => (c.1, c.2.1, s.beat) }
  s.settleAll g.clusters

/-- A cluster's work is done (R392). -/
def ClusterState.workDone (c : ClusterState) : Bool :=
  c.work.ended && (upto c.work.record).all c.doneRecords.contains && c.stitchList.ended && c.stitchDesc.isNone && c.stitchOut.isEmpty
    && c.cinchList.ended && c.cinchOps.isEmpty
    && (upto 8).all (fun f => !gdValid (c.gd f) || gangComplete (c.gd f) (c.gangFold f))
    && c.outstanding.isEmpty && c.lacing.active.isEmpty && c.lacing.queue.isEmpty && c.fillCopy.all (·.poster.isSome)

/-- The requesters of row memory that act for a task (R213). -/
def taskRequesters : List Nat := [0, 1, 4, 5, 6, 7, 8, 9, 10, 11, 13, 14]

/-- Whether no row transfer of a task is outstanding, the arbiter's decisions being made (R392). -/
def Arbiter.rowsMoved (a : Arbiter) (t : Nat) : Bool :=
  a.requests.all (fun x => !taskRequesters.contains x.1) && a.queue.all (fun x => !taskRequesters.contains x.1 || x.2.isEmpty)
    && (upto 2).all fun p => !(a.port p).owner.any taskRequesters.contains || decide ((a.port p).ends ≤ t)

/-- Whether a cluster meets R392 in cycle `t`. -/
def ClusterState.taskDone (c : ClusterState) (t : Nat) : Bool := c.workDone && c.arb.rowsMoved t

/-- The arbiters of clusters with every decision made up to now. -/
def State.settleArbs (s : State) (ks : List Nat) : State := ks.foldl (fun s k => s.settleArb k) s

/-- The success layout of RUN_TASK (R373). -/
def taskImm (t : Task) (stop : BitVec 48) (late : Nat) : Nat :=
  t.start.toNat + stop.toNat <<< 48 + (late % 2 ^ 32) <<< 96

/-- TASK_END (R392): the first beat boundary at which every cluster's work is done. -/
def execTaskEnd (r : Rg) (s : State) : Res :=
  .next (let g := s.region r.val
         match g.task with
         | none => s
         | some t =>
           let u := (s.reachBoundary 4096).settleArbs g.clusters
           if !t.started || t.ending.isSome || g.state ≠ .running || !g.clusters.all (fun k => (u.cl k).taskDone u.clock) then s
           else
             let late := u.lateOf g.clusters
             (u.finishTask r.val t (if t.faulted then .faulted else .loaded)).complete t.ctx t.seq stSuccess (taskImm t u.beat late))

/-- The region's state after an early end (R185, R296, R372, R393). -/
def stateAfter (t : Task) (status : Nat) : RegionState :=
  if t.faulted || status == 8 || status == 0xB || status == 0xC then .faulted else .loaded

/-- Nothing that a task has sent is unanswered (R297). -/
def ClusterState.settled (c : ClusterState) : Bool :=
  c.outstanding.isEmpty && c.stitchOut.isEmpty && c.stream.slots.all (fun x => x.2.post.isNone) && c.fes.all fun f => f.2.running.isEmpty

/-- TASK_END_EARLY (R297 step 4): the last request has completed. -/
def execTaskEndEarly (r : Rg) (s : State) : Res :=
  .next (let g := s.region r.val
         match g.task with
         | none => s
         | some t => match t.ending with
           | none => s
           | some e =>
             if !t.stopped || !g.clusters.all (fun k => (s.cl k).settled) then s
             else
               let late := s.lateOf g.clusters
               (s.finishTask r.val t (stateAfter t e.status)).completeFault t.ctx t.seq { e with count := late })

/-- BEAT_LIMIT (R393): the boundary at which the limit is reached. -/
def execBeatLimit (r : Rg) (s : State) : Res :=
  .next (let g := s.region r.val
         match g.task with
         | none => s
         | some t =>
           if !t.started || t.ending.isSome || t.limit = 0 then s
           else
             let target := t.startBeats + 2 ^ t.limit
             let u := if s.beats < target then s.advance (4096 * (target - s.beats) - s.now % 4096) else s
             let u := u.settleArbs g.clusters
             if g.clusters.all fun k => (u.cl k).taskDone u.clock then s
             else
               let e : Ending := { status := stBeatLimit, cluster := g.clusters.headD 0 }
               ((u.stopClusters g.clusters).modTask r.val fun t =>
                 { t with ending := some e, endBeat := u.beat, stopped := true, phase := .stopping }).count (pgContext t.ctx) 21 1)

/-! ### Affinity (R398) -/

/-- AFFINITY_PROBE (R398). -/
def execAffinityProbe (req : Req) (x : Ctx) (s : State) : Res :=
  .next (let n := pgContext x.val
         if !s.pageOpen req n || (s.ctx x.val).probing.isSome then s
         else
           let s := s.setReg n 0xD0 0
           s.modCtx x.val fun c => { c with probing := some (s.regOf n 0xD4, s.regOf n 0xD8) })

/-- Whether context `x` owns home-view granule `g` (R276). -/
def DeviceMemory.ownsGranule (m : DeviceMemory) (x g : Nat) : Bool :=
  let e := (SMap.getD m.granules g 0).toNat
  decide (g < 442368) && bitAt e 7 && e % 64 == x

/-- Lines of owned granules of the range that die `d`'s reuse cache holds. -/
def DeviceMemory.affLines (m : DeviceMemory) (x d base len : Nat) : Nat :=
  ((SMap.getD m.cache d []).filter fun c =>
    let g := homeOf c.stack (512 * c.line) / 2 ^ 21
    decide (base ≤ g ∧ g < base + len) && m.ownsGranule x g).length

/-- Owned granules of the range that die `d` homes. -/
def DeviceMemory.affHome (m : DeviceMemory) (x d base len : Nat) : Nat :=
  (m.granules.filter fun e => decide (base ≤ e.1 ∧ e.1 < base + len) && e.1 / 55296 == d && m.ownsGranule x e.1).length

/-- Live clusters of compute die `d` in no region. -/
def State.freeOn (s : State) (d : Nat) : Nat :=
  ((upto 320).filter fun k => dieOf k == d && s.isLive k && (s.regionOf? k).isNone).length

/-- AFFINITY_PROBE_DONE (R398): the probe ends. -/
def execAffinityProbeDone (x : Ctx) (s : State) : Res :=
  .next (match (s.ctx x.val).probing with
    | none => s
    | some (base, len) =>
      let n := pgContext x.val
      let s' := (upto 8).foldl (fun t d =>
        ((t.setReg n (0xE0 + 4 * d) (s.mem.affHome x.val d base len)).setReg n (0x100 + 4 * d)
          (s.mem.affLines x.val d base len)).setReg n (0x120 + 4 * d) (s.freeOn d)) s
      (s'.setReg n 0xD0 (2 ^ 31)).modCtx x.val fun c => { c with probing := none })

end Sys2Proof.Machine
end

