-- ==== Sys2Proof/Machine/Power.lean ====
section
/-! DEFINITION. Power (spec/16): domains, power steps, forecasts, sheds, quiesce, limiter and heat. -/
namespace Sys2Proof.Machine

/-! ### Domains (R25, R414, R415) -/

/-- DOMAIN_RAISE (R415). -/
def execDomainRaise (k : Cl) (s : State) : Res :=
  .next (match s.takeEntry (pgClCtrl k.val) 5 with
    | none => s
    | some (e, s) =>
      let want := e.arg.toNat % 4
      let c := s.cl k.val
      if c.retired then s
      else if c.power = .off then
        if want = 0 ∨ c.raiseDue.isSome then s else s.modCl k.val fun c => { c with raiseDue := some (s.beat + 16#48) }
      else if want = 2 ∧ c.power = .idle then s.modCl k.val fun c => { c with power := .run, raised := true }
      else s)

/-- DOMAIN_UP (R415): the cluster reaches IDLE, and is in RUN for the two beats of its power-up clear, the clear of R191 (R414). -/
def execDomainUp (k : Cl) (s : State) : Res :=
  .next (match (s.cl k.val).raiseDue with
    | none => s
    | some b =>
      let s := ((s.reachBeat b).modCl k.val fun c => { c with power := .run, raiseDue := none, raised := false }).clearRows k.val
      let s := ((s.reachBeat (b + 2#48)).clearCluster k.val).modCl k.val fun c => { c with power := .idle }
      (s.dropEvent (pgClPower k.val) 1).tryReserves)

/-- Whether cluster `k`'s region drains, runs, holds a granted task or is being cleared (R25, R414, R421 step 5). -/
def State.keepsPower (s : State) (k : Nat) : Bool :=
  match s.regionOf? k with
  | some (r, g) => g.state == .draining || g.state == .running || g.clearing.isSome || (g.task.any fun t => t.phase == .granted)
      || s.bridle.request.any fun q => q.region == r && q.granted.isSome
  | none => false

/-- Whether cluster `k` is in no region and the reservation that waits does not name it (R415). -/
def State.mayPowerOff (s : State) (k : Nat) : Bool :=
  (s.regionOf? k).isNone && !s.host.reserving.any fun r => (s.namedBy r.1 r.2.1).contains k

/-- DOMAIN_LOWER (R25 step 5, R415). -/
def execDomainLower (k : Cl) (s : State) : Res :=
  .next (match s.takeEntry (pgClCtrl k.val) 6 with
    | none => s
    | some (e, s) =>
      let want := e.arg.toNat % 4
      let c := s.cl k.val
      if want = 1 then
        if s.keepsPower k.val then s.count pgBridle 7 1
        else if c.power ≠ .run then s
        else s.modCl k.val fun c => { c with power := .idle, raised := false }
      else if want = 0 then
        if !s.mayPowerOff k.val then s.count pgBridle 7 1
        else s.modCl k.val fun c => { c with power := .off, raised := false, raiseDue := none }
      else s)

/-! ### Power steps, forecasts, budgets (R418, R421, R422) -/

/-- A power step: FAC_CAP and FAC_PEAK from the entry's argument. -/
def State.powerStep (s : State) (action : Nat) : State :=
  match s.takeEntry pgBridle action with
  | none => s
  | some (e, s) => s.setReg pgBridle 0x44 e.arg.toNat

/-- POWER_STEP_UP (R418, step 1 of R25). -/
def execPowerStepUp (s : State) : Res := .next (s.powerStep 0x10)

/-- POWER_STEP_DOWN (R418, step 5 of R25). -/
def execPowerStepDown (s : State) : Res := .next (s.powerStep 0x11)

/-- FORECAST (R421 step 6). -/
def execForecast (s : State) : Res :=
  .next (match s.takeEntry pgBridle 0x12 with
    | none => s
    | some (e, s) =>
      (s.modBridle fun b => { b with announced := max (field e.arg.toNat 15 0) (s.baseW + b.bookedPeak) }).count pgBridle 2 1)

/-- SET_BUDGET (R370, R418). -/
def execSetBudget (x : Ctx) (seq : W32) (s : State) : Res :=
  .next (match s.startCmd x.val seq 14 with
    | none => s
    | some (d, s) =>
      if !bitAt (s.regOf (pgContext x.val) 0x40) 30 then s.complete x.val seq stNotPermitted 0
      else
        let host := field d 79 64
        let ctx := field d 95 80
        let w := s.brCap
        let w := if host = 0 then w else setField w 31 16 (min host 8000)
        let w := if ctx = 0 then w else setField w 15 0 ctx
        (s.setReg pgBridle 0x40 w).complete x.val seq stSuccess 0)

/-- The body of a forecast message or shed notice (R422). -/
def State.forecastBytes (s : State) (notice : Bool) : List Byte :=
  let seq := s.bridle.messages
  let beat := if notice then s.bridle.shedBeat
              else s.beat + BitVec.ofNat 48 (64 + Config.forecastLead seq)
  let level := if notice then s.bridle.shedWatts else s.bridle.fcLevel
  let flags := if notice then 2 * ofBool (s.shedLevel == 0) else ofBool (decide (8000 < level))
  toBytes 4 Config.enterpriseNumber.toNat ++ toBytes 1 0x20 ++ toBytes 1 seq ++ toBytes 2 (if notice then 2 else 1)
    ++ toBytes 2 seq ++ toBytes 6 beat.toNat ++ toBytes 2 level ++ toBytes 1 flags ++ toBytes 3 0

/-- FORECAST_MESSAGE (R421 step 2, R422), which Sorrel sends: none while the management plane is stalled (R24). -/
def execForecastMessage (notice : Bool) (s : State) : Res :=
  .next (if !s.boot.sorrelUp || (!notice && !s.bridle.fcPending) then s
         else (s.emit (.mctp (s.forecastBytes notice))).modBridle fun b => { b with messages := (b.messages + 1) % 65536 })

/-! ### Sheds (R410) -/

/-- The pace of a shed level (R410). -/
def State.levelPace (s : State) (level : Nat) : Nat :=
  if level = 2 then field s.brShed 5 0 else if level = 1 then field s.brShed 13 8 else 64

/-- The shed conditions, or BR_SHED, changed by `f` at a beat boundary: pace, event and counters follow the level that governs
(R407, R410, R428). -/
def State.changeShed (s : State) (f : State → State) : State :=
  let s := s.reachBoundary 4096
  let old := s.shedLevel
  let pace0 := s.levelPace old
  let s := f s
  let new := s.shedLevel
  if new = old then
    if s.levelPace new = pace0 then s else s.modBridle fun b => { b with shed := s.rise b.shed (s.levelPace new) }
  else
    let pace := s.rise s.bridle.shed (s.levelPace new)
    let s := s.modBridle fun b =>
      { b with shed := pace, shedBeat := s.beat, shedWatts := shedWatts (if new = 0 then old else new) }
    let s := if old < new then s.count pgBridle (3 + new) 1 else s
    if new = 0 then s.dropEvent pgBridle 2 else s.raiseEvent pgBridle 2

/-- SHED_ENTRY (R410). Below 44 V the input is below 48 V too. -/
def execShedEntry (cause : ShedCause) (s : State) : Res :=
  .next (s.changeShed fun s => s.modBridle fun b => match cause with
    | .below48 => { b with below48 := true }
    | .below44 => { b with below44 := true, below48 := true }
    | .shedN => { b with shedN := true })

/-- SHED_END (R410): the return condition has held; from below 44 V to the 60 % level. -/
def execShedEnd (cause : ShedCause) (s : State) : Res :=
  .next (s.changeShed fun s => s.modBridle fun b => match cause with
    | .below48 => { b with below48 := false, below44 := false }
    | .below44 => { b with below44 := false }
    | .shedN => { b with shedN := false })

/-! ### Quiesce (R412) -/

/-- The module quiesces at the next beat boundary: every region stops, viral is asserted, nothing is answered. -/
def State.quiesce (s : State) : State :=
  if s.boot.phase = .off ∨ s.boot.phase = .quiesced then s
  else
    let s := s.nextBeat
    let s := s.regions.foldl (fun s r => s.stopClusters r.2.clusters) s
    let s := s.pulse pgBridle 6
    { s with boot := { s.boot with phase := .quiesced, viral := true, linkUp := false, configReady := false } }

/-- QUIESCE (R410, R412): the input has fallen below 38 V, or a rail has left regulation. -/
def execQuiesce (s : State) : Res := .next s.quiesce

/-! ### The limiter (R424) -/

/-- LIMITER_TRIP (R424): the pace of every RUNNING cluster falls by 8 at each boundary down to PACE30. -/
def execLimiterTrip (_overPeak : Bool) (s : State) : Res :=
  .next (if s.bridle.limiting then s
         else
           let s := (s.modLimiter s.limiterFall).modBridle fun b => { b with limiting := true }
           (s.pulse pgBridle 3).count pgBridle 6 1)

/-- LIMITER_END (R424): a sample below the exceeded cap; the pace rises by the rule of R410. -/
def execLimiterEnd (s : State) : Res :=
  .next (if !s.bridle.limiting then s
         else (s.modLimiter fun g => s.rise g 64).modBridle fun b => { b with limiting := false })

/-! ### Heat (R425) -/

/-- The number of a unit among the warned and tripped: compute dies 0 to 7, memory-side 8 to 15, stacks 16 to 39, I/O 40, 41. -/
def unitNumber : ThermalUnit → Nat
  | .compute d => d.val
  | .memorySide d => 8 + d.val
  | .stack n => 16 + n.val
  | .io d => 40 + d.val

/-- Warning, trip and critical thresholds in °C (R425). -/
def thresholds : ThermalUnit → Int × Int × Int
  | .compute _ => (95, 105, 115)
  | .memorySide _ => (90, 100, 110)
  | .stack _ => (85, 95, 105)
  | .io _ => (95, 105, 115)

/-- The thermal pace that a unit's trip sets: a compute die's, or that of every cluster (key 8). -/
def paceKey : ThermalUnit → Option Nat
  | .compute d => some d.val
  | .io _ => some 8
  | _ => none

/-- THERMAL_WARNING (R425): event 4 holds while a unit is at or above its warning. -/
def execThermalWarning (u : ThermalUnit) (temp : Int) (s : State) : Res :=
  .next (let n := unitNumber u
         let rest := listErase s.bridle.warned n
         let now := if (thresholds u).1 ≤ temp then n :: rest else rest
         let s := s.modBridle fun b => { b with warned := now }
         if now.isEmpty then s.dropEvent pgBridle 4 else s.raiseEvent pgBridle 4)

/-- THERMAL_TRIP (R425): thermal pace 16 where the unit paces clusters. -/
def execThermalTrip (u : ThermalUnit) (temp : Int) (s : State) : Res :=
  .next (let n := unitNumber u
         if temp < (thresholds u).2.1 ∨ s.bridle.tripped.contains n then s
         else
           let s := s.modBridle fun b => { b with tripped := n :: b.tripped }
           let s := (s.pulse pgBridle 5).count pgBridle 11 1
           match paceKey u with
           | none => s
           | some key =>
             let s := s.reachBoundary 4096
             s.modBridle fun b =>
               { b with thermal := SMap.put b.thermal key { start := 16, since := s.beat, step := 0, goal := 16 } })

/-- Whether another tripped unit holds a thermal pace. -/
def Bridle.holdsPace (b : Bridle) (key : Nat) : Bool :=
  if key = 8 then b.tripped.contains 40 || b.tripped.contains 41 else b.tripped.contains key

/-- THERMAL_TRIP_END (R425): the pace rises under R410. -/
def execThermalTripEnd (u : ThermalUnit) (s : State) : Res :=
  .next (let n := unitNumber u
         if !s.bridle.tripped.contains n then s
         else
           let s := s.modBridle fun b => { b with tripped := listErase b.tripped n }
           match paceKey u with
           | none => s
           | some key =>
             if s.bridle.holdsPace key then s
             else
               let s := s.reachBoundary 4096
               s.modBridle fun b => { b with thermal := SMap.put b.thermal key (s.rise (SMap.getD b.thermal key {}) 64) })

/-- THERMAL_CRITICAL (R425): quiesce. -/
def execThermalCritical (u : ThermalUnit) (temp : Int) (s : State) : Res :=
  .next (if (thresholds u).2.2 ≤ temp then s.quiesce else s)

/-! ### The heartbeat (R419) -/

/-- MGMT_STALE (R419): 8,192 beats without a heartbeat. -/
def execMgmtStale (s : State) : Res :=
  .next (if s.bridle.stale then s
         else
           let s := s.reachBeat (s.bridle.lastHeartbeat + 8192#48)
           (s.modBridle fun b => { b with stale := true }).raiseEvent pgBridle 7)

/-- HEARTBEAT (R419): a management core writes BR_MGMT_BEAT. -/
def execHeartbeat (req : Req) (s : State) : Res :=
  .next (if !isMgmtReq req || !s.answers req pgBridle then s
         else (s.modBridle fun b => { b with stale := false, lastHeartbeat := s.beat }).dropEvent pgBridle 7)

end Sys2Proof.Machine
end

