-- ==== Sys2Proof/Machine/Watch.lean ====
section
/-! DEFINITION. The deadlock watch (R184 to R186, R342). -/
namespace Sys2Proof.Machine

/-! ### The deadlock watch (R184 to R186) -/

/-- The queues that the active slot's operands read. -/
def slotQueues (w : Nat) : List Nat :=
  let srcs := ((operandsOf .dpe w) ++ (operandsOf .le w) ++ (operandsOf .ce w)).map (·.1)
    ++ (if cwCeOp w = 3 then [cwSrcD w] else [])
  srcs.flatMap fun x =>
    if x < 8 then [x] else if x < 12 then [2 * (x - 8), 2 * (x - 8) + 1]
    else if x = 12 then (upto 8).filter (cwInGroup w) else []

/-- Full and empty shares of a cluster, as 8 × core + queue (R186). -/
def ClusterState.shares (c : ClusterState) : List Nat × List Nat :=
  let f := c.activeFold
  (c.full,
   c.cores.flatMap fun x =>
      let w := x.2.word f
      if cwValid w then (upto 8).filterMap fun q =>
        if (slotQueues w).contains q ∧ x.2.held q f = 0 then some (8 * x.1 + q) else none else [])

/-- Whether an engine's descriptor waits on an arrival counter (R342): stream slots, the heads of the Awl, FEs, fill and copy. -/
def ClusterState.engineWaits (c : ClusterState) : Bool :=
  (c.stream.slots.any fun x => x.2.desc.isSome && !x.2.started
      && !c.waitMet true (sdWaitHandle x.2.word) (sdWaitCount x.2.word))
  || (c.awl.queue.head?.any fun d => !c.waitMet (awWaitEn d.bits.toNat) (awWaitHandle d.bits.toNat) (awWaitCount d.bits.toNat))
  || (c.fes.any fun f => f.2.queue.head?.any fun d =>
      !c.waitMet (feWaitEn d.bits.toNat) (feWaitHandle d.bits.toNat) (feWaitCount d.bits.toNat))
  || (c.fillCopy.head?.any fun d =>
      !c.waitMet (bitAt d.bits.toNat 70) (field d.bits.toNat 69 64) (field d.bits.toNat 63 32))

/-- Whether a cluster's state keeps the watch from counting (R184 items 5 and 6, R342). -/
def State.watchOff (s : State) (k : Nat) : Bool :=
  !bitAt (s.reg (pgClCtrl k) 0x31C 1) 0 || (s.cl k).cores.any (fun c => c.2.gates != 0) || (s.cl k).engineWaits

/-- DEADLOCK_WATCH (R184, R185): the boundary at which region `r` has been idle for 64 beats. -/
def execDeadlockWatch (r : Rg) (s : State) : Res :=
  .next (let g := s.region r.val
         let ks := g.clusters
         match g.task with
         | none => s
         | some t =>
           let last := ks.foldl (fun m k => max m (s.cl k).activeBeat) (t.startBeats + 1)
           let full := firstSome (fun k => !(s.cl k).shares.1.isEmpty) ks
           let boundary := last + 64
           let at_ := s.beat + BitVec.ofNat 48 (boundary - s.beats)
           if g.state ≠ .running ∨ ks.any s.watchOff then s
           else match full with
             | none => s
             | some first =>
               if !(s.inOrder at_ 61) then s
               else
                 let s := if s.beats < boundary then s.advance (4096 * (boundary - s.beats) - s.now % 4096) else s
                 let s := ks.foldl (fun s k =>
                   let (fs, es) := (s.cl k).shares
                   (s.modCl k fun c => { c with frozen := true, idleBeats := 64, fullShares := fs, emptyShares := es }).count
                     (pgClCtrl k) 48 1) s
                 let s := (s.pulse (pgClCtrl first) 16).endTask first { status := 0xB }
                 s.modRegion r.val fun g => { g with state := .faulted })

end Sys2Proof.Machine
end

