-- ==== Sys2Proof/Machine/RegRead.lean ====
section
/-! DEFINITION. What every register of every page reads as: the common frame (R27 to R30, R33), the block-specific registers
of each chapter, the counters (R38, R39) and the BAR0 mirrors of the management-plane pages (R22). -/
namespace Sys2Proof.Machine

/-! ### STATUS and the common frame (R27 to R30) -/

/-- MT_STATE (R72). -/
def timeCode : TimeMode → Nat
  | .acquire => 0 | .synced => 1 | .island => 2 | .returning => 3

/-- STATUS[29:0] of a page (R72, R476 to R478, R500). -/
def State.blockStatus (s : State) : Block → Nat
  | .mtime => ofBool s.mt.holdover <<< 5 + ofBool s.mt.present <<< 4 + ofBool s.mt.localRef <<< 3 + ofBool s.mt.unsync <<< 2
      + timeCode s.mt.mode
  | .flash => s.flashStatus
  | .attest => s.attestStatus
  | .custody => s.custodyStatus
  | .mgmt => ofBool (decide (spareRoom ≤ s.spares.entries.length)) <<< 29 + (s.spares.entries.length % 2 ^ 15) <<< 14
  | _ => 0

/-- PAGE_ID (R28). -/
def pageId (i : PageInfo) : Nat := blockType i.block <<< 24 + i.index <<< 18 + i.inst <<< 8 + 1

/-- PAGE_REV (R29). -/
def pageRev (i : PageInfo) : Nat := 0x00B1 <<< 16 + (Config.blockRevision (blockType i.block)).toNat

/-- STATUS of page `n` itself. -/
def State.statusWord (s : State) (n : Nat) (b : Block) : Nat := ofBool (s.page n).inReset <<< 30 + s.blockStatus b

/-- The registers at 0x000 to 0x03F of the page itself (R27). -/
def State.commonReg (s : State) (n : Nat) (i : PageInfo) (off : Nat) : Nat :=
  let g := s.page n
  match off with
  | 0x00 => pageId i
  | 0x04 => pageRev i
  | 0x08 => s.statusWord n i.block
  | 0x0C => g.control.toNat
  | 0x10 => (s.levelRead n).toNat
  | 0x14 => g.enable.toNat
  | 0x18 => (s.latchRead n).toNat
  | 0x20 => g.lock.toNat
  | 0x24 => g.err.toNat
  | _ => 0

/-! ### Registers of the module's pages -/

/-- Word `w` of a value of several words. -/
def wordOf (v w : Nat) : Nat := field v (32 * w + 31) (32 * w)

/-- The 2-bit codes of a list, the first lowest. -/
def packTwo (cs : List Nat) : Nat := cs.foldr (fun c n => 4 * n + c) 0

/-- A mask of the numbers below `n` for which `p` holds. -/
def maskOf (n : Nat) (p : Nat → Bool) : Nat := (upto n).foldr (fun i m => 2 * m + ofBool (p i)) 0

/-- Offset `off` lies in a table of `n` entries of `size` bytes at `base`. -/
def inTable (off base size n : Nat) : Bool := decide (base ≤ off ∧ off < base + size * n)

/-- The IRQC page's block of a target (R47). -/
def State.irqcReg (s : State) (off : Nat) : Nat :=
  if inTable off 0x40 0x20 19 then
    let t := (off - 0x40) / 0x20
    match off % 0x20 with
    | 0 => field (s.regOf pgIrqc off) 3 0
    | 4 => field (s.regOf pgIrqc off) 16 16 <<< 16 + (SMap.getD s.irq.claimed t []).headD 0
    | 8 => match s.bestOffer t with
      | some n => 2 ^ 31 + n
      | none => 0
    | _ => 0
  else 0

/-- The MTIME page (R72). -/
def State.mtimeReg (s : State) (off : Nat) : Nat :=
  match off with
  | 0x40 => field (s.regOf pgMtime 0x40) 1 0
  | 0x44 => s.mt.lastBeat.toNat % 2 ^ 32
  | 0x48 => s.mt.lastBeat.toNat >>> 32
  | 0x4C => s.mt.offset.toNat
  | _ => 0

/-- The REGION_MGR page (R193). -/
def State.regionReg (s : State) (off : Nat) : Nat :=
  if inTable off 0x40 8 128 then
    let g := s.region ((off - 0x40) / 8)
    if off % 8 = 0 then g.entry else g.lastCommit.toNat % 2 ^ 32
  else 0

/-- The CINCH page of unit `u` (R334, R354). -/
def State.cinchReg (s : State) (u off : Nat) : Nat :=
  let c := s.cinchUnit u
  match off with
  | 0x40 => s.regOf (pgCinch u) 0x40
  | 0x44 => (SMap.getD c.xlt (s.regOf (pgCinch u) 0x40) 0).toNat
  | 0x48 => c.barriers.length <<< 16 + c.watches.length
  | 0x4C => ofBool c.busy <<< 31
  | _ => 0

/-- Whether context `x` has no RUNNING region and no TASK_START pending (R396). -/
def State.ctxIdle (s : State) (x : Nat) : Bool :=
  s.regions.all fun r => r.2.owner != x
    || (r.2.state != .running && !(r.2.task.any fun t => t.phase == .granted))

/-- The CONTEXT page `x` (R361, R396, R398, R402). -/
def State.contextReg (s : State) (x off : Nat) : Nat :=
  let c := s.ctx x
  let w := s.regOf (pgContext x) off
  match off with
  | 0x88 => c.sqHead % 4096
  | 0x8C => ofBool c.phase <<< 31 + ofBool (!c.inProgress.isEmpty || !c.waiting.isEmpty) <<< 30 + c.cqTail % 4096
  | 0xC0 => setField (setField w 30 30 (ofBool (s.ctxIdle x))) 20 17 (s.serving x)
  | _ => w

/-- Whether a booked task's ramp runs in the present beat (R423). -/
def State.ramping (s : State) : Bool :=
  s.bridle.bookings.any fun b => !beatDue (rampEndOf b.peak b.start) s.beat && beatDue b.start s.beat

/-- BR_STATUS (R427). -/
def State.brStatus (s : State) : Nat :=
  let level := if s.boot.phase = .quiesced then 3 else s.shedLevel
  ofBool s.bridle.stale <<< 31 + level <<< 29 + ofBool s.bridle.shedN <<< 28 + ofBool s.ramping <<< 27
    + ofBool (s.runningClusters.any fun k => decide (s.limiterOf k < 64)) <<< 26

/-- The BRIDLE page (R427). -/
def State.bridleReg (s : State) (off : Nat) : Nat :=
  match off with
  | 0x70 => (s.bridle.bookedMean % 2 ^ 16) <<< 16 + s.bridle.bookedPeak % 2 ^ 16
  | 0x74 => s.headroom % 2 ^ 16
  | 0x78 => s.bridle.announced % 2 ^ 16
  | 0x7C => ofBool s.bridle.fcPending <<< 31 + s.bridle.fcLevel % 2 ^ 16
  | 0x80 => s.brStatus
  | 0x84 => (Config.inputReading s.clock).toNat
  | _ => s.regOf pgBridle off

/-! ### Registers of the dies' pages -/

/-- GRN_DATA: the entry that GRN_INDEX names (R277). -/
def State.granuleReg (s : State) (n first : Nat) : Nat := (SMap.getD s.mem.granules (first + s.regOf n 0x80) 0).toNat

/-- The MSD page of die `d` (R277, R493). -/
def State.msdReg (s : State) (d off : Nat) : Nat :=
  match off with
  | 0x84 => s.granuleReg (pgMsd d) (55296 * d)
  | 0x88 => s.spares.lostGranules d
  | _ => s.regOf (pgMsd d) off

/-- The IO_DIE page of die `d` (R277, R443, R449). -/
def State.ioDieReg (s : State) (d off : Nat) : Nat :=
  match off with
  | 0x84 => s.granuleReg (pgIoDie d) (524288 + 262144 * d)
  | 0x94 => (SMap.getD s.harness.routes (s.regOf (pgIoDie d) 0x90) 0).toNat
  | 0x98 => s.moduleId.toNat
  | _ => s.regOf (pgIoDie d) off

/-- The CXL_ADAPTER page (R358). -/
def State.cxlReg (s : State) (off : Nat) : Nat :=
  match off with
  | 0x44 => ofBool s.biasBusy <<< 31 + ofBool (s.host.deviceBias.contains (s.regOf pgCxl 0x40))
  | _ => s.regOf pgCxl off

/-- The 16 B wake record of R343. -/
def WakeRecord.bits (r : WakeRecord) : Nat :=
  r.value.toNat + r.vid.toNat <<< 64 + ofBool r.poison <<< 76 + r.cookie.toNat <<< 96

/-- The DISPATCH page of core `t`: the oldest wake record's words (R343). -/
def State.dispatchReg (s : State) (t off : Nat) : Nat :=
  if inTable off 0x100 4 4 then
    match (s.wakeQueue t).records with
    | r :: _ => wordOf r.bits ((off - 0x100) / 4)
    | [] => 0
  else 0

/-- LNK_STATE.STATE (R451). -/
def linkCode : LinkMode → Nat
  | .off => 0 | .training => 1 | .up => 2 | .retraining => 3 | .failed => 4

/-- A channel's state (R451). -/
def channelCode : ChannelMode → Nat
  | .closed => 0 | .opened => 1 | .stopped => 2

/-- Sixteen channels' states in a word (R451). -/
def channelWord (m : SMap Channel) (w : Nat) : Nat := packTwo ((upto 16).map fun i => channelCode (SMap.getD m (16 * w + i) {}).mode)

/-- The registers of one link at +`o` (R451). -/
def Link.word (x : Link) (o : Nat) : Nat :=
  match o with
  | 0x00 => linkCode x.mode <<< 29 + (x.fail % 4) <<< 27
      + ofBool (((upto 4).filter fun i => x.lanes.getLsbD i).length == 2) <<< 26 + x.lanes.toNat <<< 22 + (x.lh % 256) <<< 14
      + x.rtt % 4096
  | 0x04 => match x.peer with
    | some (m, t, l) => 2 ^ 31 + t.toNat <<< 17 + l.toNat <<< 14 + m.toNat
    | none => 0
  | 0x08 => phasesHeld x.outbound 32 <<< 8 + phasesHeld x.inbound 32
  | 0x10 => channelWord x.outbound 0
  | 0x14 => channelWord x.outbound 1
  | 0x18 => channelWord x.inbound 0
  | 0x1C => channelWord x.inbound 1
  | _ => 0

/-- LANE_TEST of a lane: the checker of a looped test has locked; whether another has, its line says (R450, R451; log 43). -/
def State.laneWord (s : State) (l lane : Nat) : Nat :=
  let w := (SMap.getD (s.link l).laneTest lane 0).toNat
  setField w 30 30 (ofBool (bitAt w 31 && (bitAt w 26 || Config.checkerLock (4 * l + lane) s.clock)))

/-- The TRUNK page of trunk `t` (R451). -/
def State.trunkReg (s : State) (t off : Nat) : Nat :=
  if off = 0x44 then maskOf 8 fun n => (s.link (8 * t + n)).mode == .up
  else if inTable off 0x200 0x20 8 then (s.link (8 * t + (off - 0x200) / 0x20)).word (off % 0x20)
  else if inTable off 0x400 4 32 then s.laneWord (8 * t + (off - 0x400) / 16) ((off - 0x400) / 4 % 4)
  else s.regOf (pgTrunk t) off

/-! ### Registers of a cluster's pages -/

/-- GANG_STATUS (R163). -/
def ClusterState.gangStatus (c : ClusterState) (clock : Nat) : Nat :=
  let g := c.gang
  let f := c.gangFold g.lastFold
  let last := match g.drain with
    | some (f, _, d) => decide (clock < d - 6 - gdSkew (c.gd f))
    | none => false
  let draining := (match g.drain with | some (_, _, d) => decide (d ≤ clock) | none => false)
    || (g.run.isSome && c.drainF.all fun fin => decide (clock < fin))
  let phase := if g.phase = 3 ∨ clock < g.nextRound then g.phase else 0
  ofBool (f.isOpen || last || draining) <<< 31 + (g.lastFold % 8) <<< 28 + (phase % 4) <<< 26
    + ofBool draining <<< 25 + ofBool g.gateWait <<< 24 + g.lastBlock % 2 ^ 24

/-- The idle beats that the deadlock watch has counted for a cluster's region (R184, R186). -/
def State.idleBeats (s : State) (k : Nat) : Nat :=
  if (s.cl k).frozen then (s.cl k).idleBeats
  else match s.regionOf? k with
    | some (_, g) => match g.task with
      | some t =>
        let last := g.clusters.foldl (fun m k => max m (s.cl k).activeBeat) (t.startBeats + 1)
        if g.state ≠ .running ∨ g.clusters.any s.watchOff ∨ g.clusters.all (fun j => (s.cl j).full.isEmpty) then 0
        else min 64 (s.beats - last)
      | none => 0
    | none => 0

/-- CL_REGION (R192). -/
def State.clRegion (s : State) (k : Nat) : Nat :=
  let c := s.cl k
  (match s.regionOf? k with
    | some (r, g) => 2 ^ 31 + r <<< 24 + g.owner <<< 18
    | none => 0)
  + ofBool c.retired <<< 17 + (c.activeFold % 8) <<< 14 + (c.loadPhase % 8) <<< 11

/-- The CL_CTRL page (R105, R146, R163, R179, R186, R187, R192). -/
def State.clCtrlReg (s : State) (k off : Nat) : Nat :=
  let c := s.cl k
  if inTable off 0x400 0x40 8 then wordOf (c.gd ((off - 0x400) / 0x40)) (off % 0x40 / 4)
  else match off with
    | 0x310 => c.gangStatus s.clock
    | 0x314 => c.gang.kstep % 2 ^ 16
    | 0x320 => ofBool c.frozen <<< 31 + s.idleBeats k
    | 0x324 => c.fullShares.length <<< 16 + c.emptyShares.length
    | 0x328 => s.clRegion k
    | _ => s.regOf (pgClCtrl k) off

/-- The owner of a port in cycle `t` (R217). -/
def ArbPort.ownerAt (o : ArbPort) (t : Nat) : Option Nat :=
  if t ≤ o.start then o.before else if t ≤ o.ends then o.owner else none

/-- ARB_STATUS (R223). -/
def State.arbStatus (s : State) (k : Nat) : Nat :=
  let owner := fun p => (((s.cl k).arb.port p).ownerAt s.clock).elim 0 fun key => 128 + arbId key % 16
  owner 1 <<< 24 + owner 0 <<< 8

/-- The HANDLE page (R227). -/
def State.handleReg (s : State) (k off : Nat) : Nat :=
  let c := s.cl k
  if inTable off 0x40 16 64 then
    let h := c.handle ((off - 0x40) / 16)
    match off % 16 with
    | 0 => h.base.toNat
    | 4 => h.note.toNat
    | 8 => h.ring.toNat
    | _ => 0
  else if inTable off 0x500 4 64 then (c.arrival ((off - 0x500) / 4)).toNat
  else if inTable off 0x600 8 64 then
    let r := SMap.getD c.rings ((off - 0x600) / 8) {}
    if off % 8 = 0 then (r.tail % 2 ^ 13) <<< 13 + r.head % 2 ^ 13
    else ofBool r.skipValid <<< 28 + (r.skipAt % 2 ^ 13) <<< 15 + r.used % 2 ^ 14
  else 0

/-- A census block (R137). -/
def CensusCounts.word (c : CensusCounts) (o : Nat) : Nat :=
  match o with
  | 0x0 => c.sat
  | 0x4 => c.flush
  | 0x8 => c.void
  | 0xC => c.nan
  | _ => 0

/-- A tile's state (R269). -/
def tileCode : TileState → Nat
  | .free => 0 | .filling => 1 | .ready => 2

/-- The FE page (R269). -/
def State.feReg (s : State) (k u off : Nat) : Nat :=
  let c := s.cl k
  let f := SMap.getD c.fes u {}
  if inTable off 0x600 4 4 then f.census.word (off - 0x600)
  else match off with
    | 0x40 =>
      let waits := fun (p : Nat → Bool) => f.queue.head?.any fun d => p d.bits.toNat
      ofBool (!f.queue.isEmpty || !f.running.isEmpty) <<< 31 + ofBool (waits fun w => !c.tilesMet u w) <<< 30
        + ofBool (waits fun w => !c.waitMet (feWaitEn w) (feWaitHandle w) (feWaitCount w)) <<< 29
        + (f.queue.length % 8) <<< 24 + f.vectors % 2 ^ 24
    | 0x44 => packTwo ((upto 4).map fun t => tileCode (c.tileState u t))
    | _ => 0

/-- The STREAM page (R295). -/
def State.streamReg (s : State) (k off : Nat) : Nat :=
  let c := s.cl k
  let slot := fun i => SMap.getD c.stream.slots i {}
  if inTable off 0x40 4 16 then
    let x := slot ((off - 0x40) / 4)
    ofBool x.desc.isSome <<< 31 + (x.op % 8) <<< 28 + x.rows % 2 ^ 24
  else if off = 0x80 then min 128 (c.outstanding.filter fun o => o.engine == 0).length
  else if inTable off 0x600 16 16 then (slot ((off - 0x600) / 16)).census.word (off % 16)
  else 0

/-- AWL_STATUS (R244). -/
def Awl.status (a : Awl) : Nat := ofBool (!a.queue.isEmpty) <<< 31 + ofBool a.oobSeen <<< 30 + a.done % 2 ^ 24

/-- The state of a power domain pair (R429). -/
def ClusterState.powerCode (c : ClusterState) : Nat :=
  if c.raiseDue.isSome then 3 else match c.power with
    | .off => 0
    | .idle => 1
    | .run => 2

/-- The TELEMETRY page of column `j` (R186, R517, R518). -/
def State.telemetryReg (s : State) (k j off : Nat) : Nat :=
  let c := s.cl k
  let n := pgTelemetry k j
  let stall := fun i r => (SMap.getD (c.core (32 * i + j)).stalls r {}).count % 2 ^ 16
  let shares := fun (xs : List Nat) w => maskOf 32 fun b => xs.contains (8 * (32 * (4 * w + b / 8) + j) + b % 8)
  if inTable off 0x80 8 32 then
    let i := (off - 0x80) / 8
    let m := 2 * (off % 8 / 4)
    stall i m <<< 16 + stall i (m + 1)
  else if inTable off 0x200 16 32 then
    let i := (off - 0x200) / 16
    let m := off % 16 / 4
    stall i (8 + 2 * m + 1) <<< 16 + stall i (8 + 2 * m)
  else if inTable off 0x700 4 8 then shares c.fullShares ((off - 0x700) / 4)
  else if inTable off 0x720 4 8 then shares c.emptyShares ((off - 0x720) / 4)
  else if off = 0x40 then s.regOf n off
  else 0

/-- ST_STATUS (R500). -/
def SelfTests.status (t : SelfTests) : Nat :=
  let busy := !t.running.isEmpty
  ofBool busy <<< 31 + ofBool t.pass <<< 30 + ofBool t.stopped <<< 29 + (if busy then (t.running.headD (0, 0)).1 else t.cluster) % 512

/-! ### One register -/

/-- The result and depth registers of a page's post window for requester `req` (R61, R229). -/
def State.windowReg (s : State) (req n : Nat) (b : Block) (off : Nat) : Option Nat :=
  let result := (SMap.getD (s.page n).windows req {}).result
  match b with
  | .clCtrl | .bridle | .trunk =>
    if off = 0x110 then some result
    else if off = 0x114 then some (s.pruned n).length
    else if inTable off 0x100 4 4 then some 0 else none
  | .rowmem =>
    if off = 0x50 then some result
    else if off = 0x54 then some (s.cl ((n - 0x4000) / 0x40)).fillCopy.length
    else some 0
  | _ => none

/-- A block-specific register of the page itself, at 0x040 to 0x7FF. -/
def State.blockReg (s : State) (n : Nat) (i : PageInfo) (off : Nat) : Nat :=
  let m := i.inst
  match i.block with
  | .module => if off = 0x40 then s.moduleStatus else if inTable off 0x80 4 10 then s.liveWord ((off - 0x80) / 4) else 0
  | .mtime => s.mtimeReg off
  | .bridle => s.bridleReg off
  | .irqc => s.irqcReg off
  | .regionMgr => s.regionReg off
  | .cinch => s.cinchReg m off
  | .context => s.contextReg m off
  | .mgmt => match off with
    | 0x44 => Config.enterpriseNumber.toNat
    | 0x100 => field (s.regOf n off) 8 0
    | 0x104 => s.tests.status
    | _ => s.regOf n off
  | .flash => if off = 0x40 then s.boot.floor % 1024 else 0
  | .msd => s.msdReg m off
  | .reuseCache => if off = 0x40 then 0 else s.regOf n off
  | .scrub => if inTable off 0x44 4 3 then SMap.getD s.mem.scrubPos (4 * m + (off - 0x44) / 4) 0 else s.regOf n off
  | .ioDie => s.ioDieReg m off
  | .dispatch => s.dispatchReg m off
  | .trunk => s.trunkReg m off
  | .cxlAdapter => s.cxlReg off
  | .clCtrl => s.clCtrlReg m off
  | .arbiter => if off = 0x48 then s.arbStatus m else s.regOf n off
  | .handle => s.handleReg m off
  | .fe => s.feReg m (i.index - 4) off
  | .stream => s.streamReg m off
  | .awl => if off = 0x40 then (s.cl m).awl.status else 0
  | .router => if off = 0x44 then (s.router m).notes.length <<< 16 + (s.router m).store.length else s.regOf n off
  | .clPower => if off = 0x40 then (s.cl m).powerCode <<< 30 + (s.pace m % 64) <<< 24 + field (s.regOf n off) 3 0 else 0
  | .telemetry => s.telemetryReg m (i.index - 16) off
  | _ => s.regOf n off

/-- A counter's word: a low word live, a high word the requester's snapshot (R38, R39). -/
def State.counterWord (s : State) (req n off : Nat) : Nat :=
  if off % 8 = 0 then (s.counterRead n ((off - 0x800) / 8)).toNat % 2 ^ 32
  else (SMap.getD (s.page n).snapshots req 0).toNat

/-- A management-plane page read through its mirror (R22, R30). While the page, or what the mirror last took of it, is in reset
only its identity and STATUS read otherwise than zero (R33). -/
def Page.mirrorReg (g : Page) (i : PageInfo) (off : Nat) : Nat :=
  if (g.inReset || bitAt (g.mirror.getD 0 0).toNat 30) && decide (0x0C ≤ off) then 0 else
  match off with
  | 0x00 => pageId i
  | 0x04 => pageRev i
  | 0x08 => 2 ^ 31 + (g.mirror.getD 0 0).toNat % 2 ^ 31
  | 0x10 => (g.mirror.getD 1 0).toNat
  | 0x18 => (g.mirror.getD 2 0).toNat
  | 0x24 => (g.mirror.getD 3 0).toNat
  | _ => 0

/-- The word that a 4-byte read of offset `off` of page `n` by requester `req` returns; zero where nothing is assigned. -/
def State.readReg (s : State) (req : Req) (n off : Nat) : Nat :=
  let s := s.settledFor n
  match pageInfo n with
  | none => 0
  | some i =>
    if !reachesPage req n then (s.page n).mirrorReg i off
    else if (s.page n).inReset && decide (0x0C ≤ off) then 0
    else if s.isIdlePage n && decide (0x0C ≤ off) then (if 0x40 ≤ off ∧ off < 0x800 then regReset i.block off else 0)
    else if off < 0x40 then s.commonReg n i off
    else if off < 0x800 then (s.windowReg req.val n i.block off).getD (s.blockReg n i off)
    else s.counterWord req.val n off

/-- What a read does besides (R38, R49, R343): a claim by the target's own core, a wake record popped, a counter's snapshot. -/
def State.readEffect (s : State) (req : Req) (n off : Nat) : State :=
  if !(s.answers req n) then s
  else if n = pgIrqc then
    let t := (off - 0x40) / 0x20
    if inTable off 0x40 0x20 19 && off % 0x20 == 8 && req.val == t then
      match s.bestOffer t with
      | some src => s.claimFor t src
      | none => s
    else s
  else if 0x800 ≤ off then if off % 8 = 0 then (s.settledFor n).snapshot req.val n ((off - 0x800) / 8) else s
  else match pageInfo n with
    | some ⟨.dispatch, _, t⟩ =>
      if off = 0x100 then (match s.popWake t with
        | some (_, u) => u
        | none => s)
      else s
    | _ => s

end Sys2Proof.Machine
end

