-- ==== Sys2Proof/Machine/Spares.lean ====
section
/-! DEFINITION. Errors and spares (spec/19): fatal errors and module reset, hard faults and retirements, parity errors, row repair,
self-test, the removal of a spare-map entry. -/
namespace Sys2Proof.Machine

/-! ### Fatal errors and module reset (R377, R479, R497) -/

/-- FATAL_ERROR (R479, R497, R504). -/
def execFatalError (page : BitVec 16) (code : Byte) (s : State) : Res :=
  .next (if (pageInfo page.toNat).isSome then s.fatal page.toNat code.toNat 0 else s)

/-- MODULE_RESET (R70, R377, R384): the CXL link stays trained; boot release follows. -/
def execModuleReset (s : State) : Res :=
  .next (if s.boot.phase ≠ .released ∧ s.boot.phase ≠ .ioEnabled then s
         else
           let s := s.resetPlanes.modBoot fun b => { b with phase := .ioEnabled, resetPending := true }
           (s.count pgModule 0 1).pulse pgModule 1)

/-! ### Hard faults (R484 to R487, R490) -/

/-- The physical row of logical row `i` in column `j` (R18, R486). -/
def ClusterState.physRow (c : ClusterState) (i j : Nat) : Nat := if i < SMap.getD c.skipRow j 32 then i else i + 1

/-- The retirement of a fault is pending until its cluster is in no region (R487). -/
def State.pendRetire (s : State) (u : RetireUnit) : State :=
  { s with spares := { s.spares with pending := s.spares.pending ++ [u] } }

/-- Whether a core entry of the column stands, applied or pending. -/
def State.columnUsed (s : State) (k j : Nat) : Bool :=
  (s.cl k).coreRetired.any (·.1 == j) || s.spares.pending.any fun u => match u with
    | .core k' j' _ => k'.val == k && j'.val == j
    | .cluster _ => false

/-- A core hard fault (R484, R485, R486): uncontained in its task; the column's skip, or the cluster's retirement. -/
def State.hardCore (s : State) (c : CoreId) : State :=
  let k := c.k.val
  let row := (s.cl k).physRow c.i.val c.j.val
  let unit : RetireUnit := .core c.k c.j ⟨row % 33, Nat.mod_lt row (by decide)⟩
  let s := (s.report (pgClCtrl k) 2 0xD2 0).pulse (pgClCtrl k) 20
  let s := (s.endTask k { status := 0xC, code := 0xD2, engine := 10, row := c.i.val, col := c.j.val }).markFault k
  if s.spares.pending.contains unit || (s.cl k).retired then s
  else
    let s := if s.columnUsed k c.j.val then s.addSpare 2 (clusterLoc k 1) else s.addSpare 1 (coreLoc k c.j.val row)
    s.pendRetire unit

/-- A cluster unit's hard fault (R484): 0 row memory, 1 lattice or sequencer, 2 FE or stream unit. -/
def State.clusterFault (s : State) (k : Cl) (cause : Nat) : State :=
  let n := pgClCtrl k.val
  let s := (s.report n 0 0xD2 0).pulse n 20
  if s.spares.pending.contains (.cluster k) || (s.cl k.val).retired then s
  else (s.addSpare 2 (clusterLoc k.val (cause + 2))).pendRetire (.cluster k)

/-- A pseudo-channel's hard fault (R484, R493): its retirement takes effect at the next power-on. -/
def State.channelFault (s : State) (stack pc : Nat) : State :=
  let s := (s.report (pgHbm stack) 0 0xD5 0).pulse (pgHbm stack) 4
  if (s.spares.locs 4).contains (channelLoc stack pc) then s else s.addSpare 4 (channelLoc stack pc)

/-- A row's hard fault (R484, R492): a repair is queued, and Sorrel records it; 16 within 65,536 beats fault the pseudo-channel. -/
def State.rowFault (s : State) (stack pc bank row : Nat) : State :=
  let s := (s.report (pgHbm stack) 0 0xD4 0).pulse (pgHbm stack) 4
  let key := 32 * stack + pc
  let s := { s with spares := { s.spares with
    repairs := s.spares.repairs ++ [(stack, pc, bank, row)]
    rowFaults := (s.spares.rowFaults.filter fun (f : Nat × Nat) => decide (s.beats < f.2 + 65536)) ++ [(key, s.beats)] } }
  let s := s.addSpare 3 (rowLoc stack pc bank row)
  if 16 ≤ (s.spares.rowFaults.filter fun f => f.1 == key).length then s.channelFault stack pc else s

/-- A seam wire's hard fault (R484, R494). -/
def State.wireFault (s : State) (seam pos link wire : Nat) (dir : Bool) : State :=
  let e := (seamEnds seam).1.headD (0, 0)
  let n := pgSeam e.1 e.2
  ((s.report n 0 0xD6 0).pulse n 1).addSpare 7 (wireLoc seam pos link wire dir)

/-- A package's hard fault (R484, R493). -/
def State.packageFault (s : State) (p : Nat) : State :=
  let s := s.report (pgLpddr p) 0 0xD7 0
  if (s.spares.locs 8).contains p then s else s.addSpare 8 p

/-- A lane's hard fault (R447, R484). -/
def State.laneFault (s : State) (l lane : Nat) : State :=
  ((s.report (pgTrunk (trunkOf l)) 0 0x65 0).retireLane l lane).startRetrain l

/-- HARD_FAULT (R484, R485). -/
def execHardFault (f : FaultSite) (s : State) : Res :=
  .next (match f with
    | .core c => s.hardCore c
    | .cluster k cause => s.clusterFault k cause.val
    | .hbmRow stack pc bank row => s.rowFault stack.val pc.val bank.val row.toNat
    | .pseudoChannel stack pc => s.channelFault stack.val pc.val
    | .lane l lane => s.laneFault l.val lane.val
    | .seamWire seam pos link wire dir => s.wireFault seam.val pos.val link.val wire.toNat dir
    | .package p => s.packageFault p.val)

/-- RETIREMENT (R487): at the next beat boundary, once its cluster is in no region. -/
def execRetirement (u : RetireUnit) (s : State) : Res :=
  .next (if !s.spares.pending.contains u || (s.regionOf? (retireOf u)).isSome then s
         else
           let s := s.nextBeat
           ({ s with spares := { s.spares with pending := listErase s.spares.pending u } }).applyRetire u)

/-! ### Parity errors (R484) -/

/-- The word of a parity error is poisoned. -/
def CoreState.poisonAt (c : CoreState) (site : ParitySite) : CoreState :=
  match site with
  | .queue q n =>
    let es := SMap.getD c.queues q.val []
    match es[n]? with
    | some e => { c with queues := SMap.put c.queues q.val (listSet es n { e with tok := { e.tok with poison := true } }) }
    | none => c
  | .store e =>
    let old := c.entry e.val
    { c with store := SMap.put c.store e.val { old with poison := true } }
  | .acc n => { c with acc := SMap.mod c.acc n.val {} fun a => { a with poison := true } }

/-- A parity error in a core: the word is poisoned and counted; the fourth within 65,536 beats is a core hard fault. -/
def State.parityError (s : State) (c : CoreId) (site : ParitySite) : State :=
  let k := c.k.val
  let n := pgClCtrl k
  let s := (s.report n 1 0xD1 0).count n 57 1
  let s := s.modCore k (coreNum c) fun x =>
    { (x.poisonAt site) with
      parityErrors := (x.parityErrors.filter fun e => decide (s.beats < e + 65536)) ++ [s.beats] }
  if 4 ≤ (s.core k (coreNum c)).parityErrors.length then s.hardCore c else s

/-- A read of row memory finds a word in error (R215): corrected, or delivered poisoned with a record; a word that has its syndrome
already is no new error. -/
def State.rowError (s : State) (k row word : Nat) (bad : Bool) : State :=
  let n := pgRowmem k
  let r := (s.cl k).row k row
  if !bad then (s.count n 0 1).pulse n 1
  else if r.poison.getLsbD word then s
  else
    let s := s.modCl k (·.setRow row { r with poison := r.poison ||| BitVec.ofNat 16 (2 ^ word) })
    (((s.report n 1 0x72 row).count n 1 1).pulse n 2)

/-- A flit of a held packet is in error (R315): a data word goes on poisoned; a header is found at the packet's next grant. -/
def State.flitError (s : State) (r n : Nat) (word : Option Nat) : State :=
  s.modRouter r fun x => match x.held[n]? with
    | none => x
    | some h =>
      let p := match word with
        | none => { h.packet with badHeader := true }
        | some w => if w < h.packet.data.length then { h.packet with wordPoison := h.packet.wordPoison ||| BitVec.ofNat 64 (2 ^ w) } else h.packet
      { x with held := listSet x.held n { h with packet := p } }

/-- PARITY_ERROR (R215, R305, R315, R332, R484). -/
def execParityError (site : UpsetSite) (s : State) : Res :=
  .next (match site with
    | .core c p => s.parityError c p
    | .row k row word bad => s.rowError k.val row.val word.val bad
    | .hbm stack word => if 32 * word.toNat < 36 * 2 ^ 30 then s.hbmError stack.val (32 * word.toNat) else s
    | .cache stack word way => s.cacheError stack.val (32 * word.toNat) way.val
    | .lpddr p word => s.lpddrError p.val (32 * word.toNat)
    | .cinch n => s.cinchError (n.toNat / 32768) (n.toNat % 32768)
    | .flit r n word => s.flitError r.val n.toNat (word.map (·.val)))

/-! ### Row repair (R492) -/

/-- ROW_REPAIR (R492): the queued repair runs in a refresh window; the row keeps its contents and its poison. -/
def execRowRepair (stack : Fin 24) (pc : Fin 32) (bank : Fin 16) (row : BitVec 15) (s : State) : Res :=
  .next { s with spares := { s.spares with repairs := listErase s.spares.repairs (stack.val, pc.val, bank.val, row.toNat) } }

/-! ### Self-test (R495, R496) -/

/-- SELF_TEST (R495): a management core's write to ST_CTRL with START. -/
def execSelfTest (req : Req) (k : Cl) (s : State) : Res :=
  .next (if !isMgmtReq req || !s.pageOpen req pgMgmt then s
         else
           let s := s.setReg pgMgmt 0x100 k.val
           let testing := s.tests.running.any fun t => t.1 == k.val
           if (s.regionOf? k.val).isSome || (s.cl k.val).retired || testing || 8 ≤ s.tests.running.length then s
           else
             let s := { s with tests := { s.tests with running := s.tests.running ++ [(k.val, s.clock)] } }
             (s.modCl k.val fun c => { c with selfTest := true, power := .run }).count pgMgmt 0 1)

/-- SELF_TEST_END (R495): 24,576 beats after its start. A failure is declared by HARD_FAULT. -/
def execSelfTestEnd (k : Cl) (pass : Bool) (s : State) : Res :=
  .next (match firstSome (fun t => t.1 == k.val) s.tests.running with
    | none => s
    | some t =>
      let s := s.reachClock (t.2 + 24576 * 4096)
      let s := { s with tests := { running := listErase s.tests.running t, cluster := k.val, pass := pass, stopped := false } }
      let s := (s.clearCluster k.val).modCl k.val fun c =>
        { c with selfTest := false, power := if c.retired then .off else .idle }
      if pass then s else s.count pgMgmt 1 1)

/-! ### SPARE_REMOVE (R491, R496) -/

/-- SPARE_REMOVE (R474, R491): custody action 2; nothing else changes until the next power-on. -/
def execSpareRemove (req : Req) (index : BitVec 15) (s : State) : Res :=
  .next (let i := index.toNat
         if (s.page pgMgmt).inReset then s
         else if !s.custody.present then (if s.regOf pgMgmt 0x108 = i then s else s.refuseCw req.val pgMgmt 0x108)
         else
           let s := s.setReg pgMgmt 0x108 i
           if s.spares.entries.length ≤ i then s else (s.writeSpares (listDrop s.spares.entries i)).logCustody 2 req.val)

end Sys2Proof.Machine
end

