-- ==== Sys2Proof/Machine/RegAccess.lean ====
section
/-! DEFINITION. Register accesses by address: a write to any register (R8, R22, R31 to R41 and the chapters' registers), the
register packets REG_READ and REG_WRITE of the mesh (R317), and the refresh of the mirrors (R22, R47). -/
namespace Sys2Proof.Machine

/-- The state that a command answers. -/
def State.then (s : State) (r : Res) : State :=
  match r with
  | .next t => t
  | _ => s

/-- `f` where a bit is written with 1. -/
def State.ifBit (s : State) (v : W32) (b : Nat) (f : State → State) : State := if bitAt v.toNat b then f s else s

/-- A write of LINK_EN: every link whose bit changes is enabled or disabled (R448). -/
def State.writeLinkEn (s : State) (req : Req) (t : Nat) (v : W32) : State :=
  (upto 8).foldl (fun s n =>
    if h : 8 * t + n < 48 then
      let l : Fin 48 := ⟨8 * t + n, h⟩
      if bitAt v.toNat n == s.linkEnabled (8 * t + n) then s
      else if bitAt v.toNat n then s.then (execLinkEnable req l s) else s.then (execLinkDisable req l s)
    else s) s

/-- A write to BOOT_CTRL (R459, R476). -/
def State.writeBootCtrl (s : State) (req : Req) (v : W32) : State :=
  let s := s.ifBit v 31 fun s => s.then (execConfirm req s)
  let s := s.then (execFloorRaise req (BitVec.ofNat 10 (field v.toNat 25 16)) s)
  s.then (execFloorSet req (BitVec.ofNat 10 (field v.toNat 9 0)) s)

/-- A write to a word at 0x000 to 0x03F that has a behaviour of its own; `none` elsewhere. -/
def State.commonWrite (s : State) (req : Req) (n off : Nat) (v : W32) : Option State :=
  let page := BitVec.ofNat 16 n
  match off with
  | 0x0C => some ((s.plainWrite req n off v).ifBit v 31 fun s => s.then (execCtrClear req page s))
  | 0x18 => some (s.then (execEventLatchClear req page v s))
  | 0x1C => some (s.then (execEventForce req page v s))
  | 0x20 => some (s.then (execLockWrite req page v s))
  | 0x24 => some (s.ifBit v 31 fun s => s.then (execErrCauseClear req page s))
  | _ => none

/-- A write to a register of a cluster's pages that has a behaviour of its own. -/
def State.clusterWrite (s : State) (req : Req) (k : Cl) (i : PageInfo) (off : Nat) (v : W32) : Option State :=
  match i.block with
  | .clCtrl =>
    if off = 0x31C then
      let t := s.plainWrite req (pgCl k.val i.index) off v
      some (if bitAt (s.reg (pgClCtrl k.val) 0x31C 1) 0 then t else t.active k.val)
    else none
  | .arbiter => some ((s.settleArb k.val).plainWrite req (pgArbiter k.val) off v)
  | .rowmem => if off = 0x4C then some (s.then (execFcPost req k v s)) else none
  | .handle =>
    if inTable off 0x40 16 64 then
      let h : Fin 64 := Fin.ofNat 64 ((off - 0x40) / 16)
      match off % 16 with
      | 0x0 => some (s.then (execHandleWrite req k h 0 v s))
      | 0x4 => some (s.then (execHandleWrite req k h 1 v s))
      | 0x8 => some (s.then (execHandleWrite req k h 2 v s))
      | _ => some (s.then (execRingRelease req k h (BitVec.ofNat 14 v.toNat) s))
    else none
  | .telemetry =>
    if off = 0x40 then
      some ((s.plainWrite req (pgCl k.val i.index) off v).ifBit v 31 fun s => s.then (execTelClear req k (Fin.ofNat 32 (i.index - 16)) s))
    else none
  | _ => none

/-- A write to a register of a die's page, or of a module page, that has a behaviour of its own. -/
def State.moduleWrite (s : State) (req : Req) (n : Nat) (i : PageInfo) (off : Nat) (v : W32) : Option State :=
  let d : Fin 8 := Fin.ofNat 8 i.inst
  let io : Fin 2 := Fin.ofNat 2 i.inst
  let x : Ctx := Fin.ofNat 64 i.inst
  match i.block, off with
  | .mtime, 0x40 =>
    let s := s.plainWrite req n off v
    let s := s.then (execLocalForce req (bitAt v.toNat 1) s)
    some (s.ifBit v 2 fun s => s.then (execReacquire req s))
  | .irqc, _ =>
    if inTable off 0x40 0x20 19 && off % 0x20 == 0xC then
      some (s.then (execComplete req (Fin.ofNat 19 ((off - 0x40) / 0x20)) (BitVec.ofNat 16 v.toNat) s))
    else none
  | .cinch, 0x44 => some (s.then (execXltWrite req io v s))
  | .cinch, 0x4C => some (s.then (execWakeRetarget req io v s))
  | .context, 0x40 => some (s.writeCtxCtrl req x.val v)
  | .context, 0x80 => some (s.then (execSqDoorbell req x v s))
  | .context, 0x84 => some (s.then (execCqDoorbell req x v s))
  | .context, 0x90 => some (s.ifBit v 0 fun s => s.then (execXltInval req x s))
  | .context, 0xC0 => let s := s.plainWrite req n off v
                      some (s.then (execHold req x (bitAt v.toNat 31) s))
  | .context, 0xD0 => some (s.ifBit v 0 fun s => s.then (execAffinityProbe req x s))
  | .bridle, 0x88 =>
    let f := fun (s : State) => s.plainWrite req n off v
    some (if s.bridle.shedding then s.changeShed f else f s)
  | .bridle, 0x4C => some (s.ifBit v 0 fun s => s.then (execHeartbeat req s))
  | .msd, 0x84 => some (s.then (execGranuleWrite req false d v s))
  | .ioDie, 0x84 => some (s.then (execGranuleWrite req true d v s))
  | .ioDie, 0x94 => some (s.then (execRouteWrite req io v s))
  | .reuseCache, 0x40 =>
    let s := s.ifBit v 0 fun s => s.then (execKeepClear req d s)
    some (s.ifBit v 1 fun s => s.then (execRcProbe req d s))
  | .cxlAdapter, 0x44 => some (s.then (execBiasChange req v s))
  | .trunk, 0x40 => some ((s.plainWrite req n off v).writeLinkEn req i.inst v)
  | .trunk, _ =>
    if inTable off 0x400 4 32 then
      some (s.then (execLaneTest req (Fin.ofNat 48 (8 * i.inst + (off - 0x400) / 16)) (Fin.ofNat 4 ((off - 0x400) / 4)) v s))
    else none
  | .mgmt, 0x100 =>
    let k := field v.toNat 8 0
    some ((s.plainWrite req n off v).ifBit v 31 fun s => if k < 320 then s.then (execSelfTest req (Fin.ofNat 320 k) s) else s)
  | .mgmt, 0x108 => some (s.then (execSpareRemove req (BitVec.ofNat 15 v.toNat) s))
  | .flash, 0x40 => some (s.writeBootCtrl req v)
  | _, _ => none

/-- A write to CAL_POST3 (R61, R62). -/
def State.calWrite (s : State) (req : Req) (n : Nat) (v : W32) : State :=
  let page := BitVec.ofNat 16 n
  if field v.toNat 31 24 = 0xFF then s.then (execCancel req page v s) else s.then (execCalPost req page v s)

/-- A 4-byte write of `v` at offset `off` of the assigned page `n`. Writes to the counters are ignored (R38). -/
def State.writeReg (s : State) (req : Req) (n : Nat) (i : PageInfo) (off : Nat) (v : W32) : State :=
  if 0x800 ≤ off then s
  else if off < 0x40 then (s.commonWrite req n off v).getD (s.plainWrite req n off v)
  else if windowBase i.block == some 0x100 && off == 0x10C then s.calWrite req n v
  else if h : 0x4000 ≤ n ∧ i.inst < 320 then (s.clusterWrite req ⟨i.inst, h.2⟩ i off v).getD (s.plainWrite req n off v)
  else (s.moduleWrite req n i off v).getD (s.plainWrite req n off v)

/-- A 4-byte write of `v` at BAR0 address `addr`: an address that is unassigned or out of alignment is R32's. -/
def State.writeAt (s : State) (req : Req) (addr : Nat) (v : W32) : State :=
  match pageInfo (addr / 4096) with
  | some i => if addr % 4 = 0 then s.writeReg req (addr / 4096) i (addr % 4096) v else s.badAccess req.val addr 4 true
  | none => s.badAccess req.val addr 4 true

/-- What a read of `size` bytes at `addr` returns: an aligned 8-byte read of a counter returns its 64 bits (R38). -/
def State.readValue (s : State) (req : Req) (addr size : Nat) : Nat :=
  let n := addr / 4096
  if !accessOk addr size then 0
  else if size = 8 then (if s.answers req n then ((s.settledFor n).counterRead n ((addr % 4096 - 0x800) / 8)).toNat else 0)
  else s.readReg req n (addr % 4096)

/-- BAD_ACCESS (R32): a write is ignored and a read answers zero. An access of a right size and alignment at an assigned address is
none: a read then answers its value (R38), and does what the read of its register does. -/
def execBadAccess (req : Req) (addr : BitVec 28) (size : Nat) (isWrite : Bool) (s : State) : Res :=
  .next (let a := addr.toNat
         let t := s.badAccess req.val a size isWrite
         if isWrite then t
         else
           let v := s.readValue req a size
           let t := if accessOk a size && size == 4 then t.readEffect req (a / 4096) (a % 4096) else t
           t.emit (.readValue req.val (BitVec.ofNat 64 v)))

/-- REGISTER_WRITE (R8): fields without a behaviour of their own; a register that has one behaves as its chapter says. -/
def execRegisterWrite (req : Req) (addr : BitVec 28) (value : W32) (s : State) : Res := .next (s.writeAt req addr.toNat value)

/-! ### Register packets (R317) -/

/-- The requester that a register packet's source stands for: a dispatch core, else BAR0 (log 29). -/
def requesterOf (p : Packet) : Req :=
  if epKind p.src = 2 ∧ epIoUnit p.src < 8 then Fin.ofNat 19 (8 * epIoDie p.src + epIoUnit p.src) else 18

/-- The BAR0 address of a register packet (log 29). -/
def regAddr (p : Packet) : Nat := p.addr.toNat % 2 ^ 28

/-- REG_READ (R317): the register is read, and REG_RESP carries its word back (log 29). -/
def execRegRead (p : Packet) (s : State) : Res :=
  .next (let s := s.receive p
         let req := requesterOf p
         let a := regAddr p
         let n := a / 4096
         let off := a % 4096
         let v := if accessOk a 4 then s.readReg req n off else 0
         let s := if accessOk a 4 then s.readEffect req n off else s.badAccess req.val a 4 false
         s.inject { answer p 0x32 0 with data := [BitVec.ofNat 256 (v % 2 ^ 32)] })

/-- REG_WRITE (R317): the register is written with data word 0 (log 29). -/
def execRegWrite (p : Packet) (s : State) : Res :=
  .next (let s := s.receive p
         s.writeAt (requesterOf p) (regAddr p) (BitVec.ofNat 32 (p.data.headD 0).toNat))

/-! ### CROSSING_TIMEOUT (R69) -/

/-- The request whose transfer the waiting side abandons: a read answers zero, poisoned where its answer carries poison (R69). -/
def State.abandonRequest (s : State) (p : Packet) : State :=
  let s := s.receive p
  match p.opcode.toNat with
  | 0x01 => s.inject (dataOrError p 0 (List.replicate p.len.toNat ⟨0, true⟩))
  | 0x30 => s.inject { answer p 0x32 0 with data := [0] }
  | _ => s

/-- CROSSING_TIMEOUT (R69): the transfer is abandoned; CODE 0xF0, uncontained-in-task where the crossing serves one cluster's
resources, else fatal. -/
def execCrossingTimeout (page : BitVec 16) (request : Option Packet) (s : State) : Res :=
  .next (let n := page.toNat
         if (pageInfo n).isNone then s
         else
           let s := match request with
             | some p => if (s.deliveryOf p).isSome then s.abandonRequest p else s
             | none => s
           if 0x4000 ≤ n then s.uncontained ((n - 0x4000) / 0x40) n 0xF0 0 15
           else s.fatal n 0xF0 0)

/-! ### MIRROR_REFRESH (R22, R47) -/

/-- The management-plane pages. -/
def mirroredPages : List Nat := mgmtPages ++ (upto 8).map pgScrub

/-- The mirror of page `n` takes what the page holds. -/
def State.mirrorPage (s : State) (n : Nat) : State :=
  match pageBlock n with
  | none => s
  | some b =>
    let summary := (s.latchRead n &&& (s.page n).enable) != 0#32
    let status := BitVec.ofNat 32 (s.statusWord n b)
    (s.modPage n fun g =>
      { g with mirror := if g.inReset then [status, 0, 0, 0, 0]
                         else [status, s.levelRead n, s.latchRead n, g.err, if summary then 1 else 0] }).lapse n

/-- MIRROR_REFRESH (R22, R47). -/
def execMirrorRefresh (s : State) : Res := .next (mirroredPages.foldl State.mirrorPage s)

end Sys2Proof.Machine
end

