-- ==== Sys2Proof/Machine/SaveRestore.lean ====
section
/-! DEFINITION. SAVE_CONTEXT and RESTORE_CONTEXT (R352, R353, R382, R383). -/
namespace Sys2Proof.Machine

/-! ### The image (R352, R382) -/

/-- The regions of a context, by number. -/
def State.ownedRegions (s : State) (x : Nat) : List (Nat × Region) :=
  (upto 128).filterMap fun r => if s.owns x r then some (r, s.region r) else none

/-- The 64 handle entries of a cluster, 16 B each, HND_REL zero (R227, R382). -/
def ClusterState.handleBytes (c : ClusterState) : List Byte :=
  (upto 64).flatMap fun h =>
    let e := c.handle h
    toBytes 4 e.base.toNat ++ toBytes 4 e.note.toNat ++ toBytes 4 e.ring.toNat ++ toBytes 4 0

/-- The record of a region. -/
def State.regionBytes (s : State) (r : Nat) (g : Region) : List Byte :=
  toBytes 64 (r + g.clusters.length <<< 8) ++ g.clusters.flatMap fun k => (s.cl k).handleBytes

/-- The ring record. -/
def State.ringBytes (s : State) (x : Nat) : List Byte :=
  let c := s.ctx x
  toBytes 64 (c.sqHead + s.regOf (pgContext x) 0x80 <<< 16 + c.cqTail <<< 32 + ofBool c.phase <<< 44 + c.seq.toNat <<< 64)

/-- The VID blocks (VID of entry 0) that a context maps, rising. -/
def State.mappedBlocks (s : State) (x : Nat) : List Nat :=
  ((upto 256).filter fun b => bitAt (SMap.getD (s.cinchUnit (b / 128)).xlt (128 * x + b % 128) 0).toNat 31).map fun b => 16 * b

/-- The record of a VID block. -/
def State.blockBytes (s : State) (x v : Nat) : List Byte :=
  let u := s.cinchUnit (unitOf v)
  let ns := (upto 16).map fun i => (u.physical x (v + i)).getD 0
  let mask := ns.zipIdx.foldl (fun m n => m + ofBool (u.poisoned n.1) <<< n.2) 0
  toBytes 8 (v + mask <<< 12) ++ ns.flatMap fun n => toBytes 8 (u.value n).toNat

/-- A context's watches with a dispatch-core target, in order of registration by unit. -/
def State.savedWatches (s : State) (x : Nat) : List CinchWatch :=
  ((s.cinchUnit 0).watches ++ (s.cinchUnit 1).watches).filter fun w => w.ctx == x && w.wkind == 2

/-- The record of a watch. -/
def watchBytes (w : CinchWatch) : List Byte :=
  toBytes 32 (w.comparand.toNat + w.cookie.toNat <<< 64 + w.vid <<< 96 + w.cond <<< 108 + (w.wtarget % 16) <<< 110)

/-- The cinch section (R352). -/
def State.cinchBytes (s : State) (x : Nat) : List Byte :=
  let bs := s.mappedBlocks x
  let ws := s.savedWatches x
  toBytes 16 (0x434E4348 + bs.length <<< 32 + ws.length <<< 41) ++ bs.flatMap (s.blockBytes x) ++ ws.flatMap watchBytes

/-- The whole image. -/
def State.saveImage (s : State) (x : Nat) : List Byte :=
  let rs := s.ownedRegions x
  let rest := rs.flatMap (fun r => s.regionBytes r.1 r.2) ++ s.ringBytes x ++ s.cinchBytes x
  toBytes 64 (0x43545853 + 1 <<< 32 + x <<< 40 + rs.length <<< 46 + (rest.length + 64) <<< 64) ++ rest

/-- SAVE_CONTEXT (R382). -/
def execSaveContext (x : Ctx) (seq : W32) (s : State) : Res :=
  .next (match s.startCmd x.val seq 12 with
    | none => s
    | some (d, s) =>
      let image := s.saveImage x.val
      if field d 159 128 < image.length then s.complete x.val seq stNoSpace image.length
      else
        let r := s.storeBytes x.val 0 (dImage d) image
        if r.2.1 ≠ 0 then r.1.complete x.val seq stMemoryFault 0 else r.1.complete x.val seq stSuccess image.length)

/-! ### Reading an image (R353, R383) -/

/-- `n` bytes at offset `a` of an image, as a number. -/
def imageWord (bs : List Byte) (a n : Nat) : Nat := ofBytes ((bs.drop a).take n)

/-- Offsets of the region records, the ring record and the cinch section for regions of `ns` clusters. -/
def recordOffsets : (at_ : Nat) → List Nat → List Nat
  | at_, [] => [at_]
  | at_, n :: ns => at_ :: recordOffsets (at_ + 64 + 1024 * n) ns

/-- Whether the region records agree with the owned regions. -/
def regionsAgree (bs : List Byte) (ns : List Nat) : Bool :=
  (ns.zip (recordOffsets 64 ns)).all fun p => field (imageWord bs p.2 64) 16 8 == p.1

/-- A block record's VID, poison mask and values. -/
structure SavedBlock where
  vid : Nat
  mask : Nat
  values : List Nat
deriving DecidableEq, Repr

/-- The block records from offset `a`. -/
def savedBlocks (bs : List Byte) (a n : Nat) : List SavedBlock :=
  (upto n).map fun i =>
    let o := a + 136 * i
    ⟨field (imageWord bs o 8) 11 0, field (imageWord bs o 8) 27 12, (upto 16).map fun j => imageWord bs (o + 8 + 8 * j) 8⟩

/-- A context's record of one VID block written through the current translation. -/
def State.restoreBlock (s : State) (x : Nat) (b : SavedBlock) : State :=
  s.modCinch (unitOf b.vid) fun u =>
    b.values.zipIdx.foldl (fun u v =>
      match u.physical x (b.vid + v.2) with
      | none => u
      | some n =>
        let rest := u.poison.filter (· != n)
        { u.setValue n (BitVec.ofNat 64 v.1) with poison := if bitAt b.mask v.2 then n :: rest else rest }) u

/-- A saved watch registered; one whose condition holds fires at once (R339, R353). -/
def State.restoreWatch (s : State) (x w : Nat) : State :=
  let vid := field w 107 96
  let u := unitOf vid
  let t := field w 113 110
  match (s.cinchUnit u).physical x vid with
  | none => s
  | some n =>
    let v : CinchWatch :=
      { ctx := x, vid := vid, cond := field w 109 108, comparand := BitVec.ofNat 64 (field w 63 0), src := epDispatch t,
        smod := s.moduleId, wkind := 2, wtarget := t, cookie := BitVec.ofNat 32 (field w 95 64), gate := false }
    let c := s.cinchUnit u
    if 8192 ≤ c.watches.length then s.pulse (pgCinch u) 1
    else
      let s := s.count (pgCinch u) 1 1
      if c.poisoned n then s.sendWake u (s.wakePacket u v (c.value n) true)
      else (s.modCinch u fun c => { c with watches := c.watches ++ [v] }).fireWatches u n

/-- A handle entry's rw fields written; a base that breaks the limit of R227 keeps the entry's base (R228). -/
def restoreHandle (bs : List Byte) (a : Nat) (old : Handle) : Handle :=
  let base := imageWord bs a 4
  let bad := decide (8192 < field base 27 14 ∨ 8192 < field base 27 14 + field base 12 0)
  { base := if bad then old.base else BitVec.ofNat 32 base &&& 0xEFFFDFFF#32
    note := BitVec.ofNat 32 (imageWord bs (a + 4) 4)
    ring := BitVec.ofNat 32 (imageWord bs (a + 8) 4) &&& 0x0000FFFF#32 }

/-- A cluster after RESTORE_CONTEXT: its handle table from the block at `a`; core stores undefined, arrival counters and rings
zero (R104, R228, R383). -/
def ClusterState.restore (c : ClusterState) (bs : List Byte) (a free : Nat) : ClusterState :=
  { c with
    handles := (upto 64).foldl (fun m h => SMap.put m h (restoreHandle bs (a + 16 * h) (c.handle h))) c.handles,
    arrivals := [], notifiers := [], rings := [], ringWaiters := [],
    cores := (upto 1024).map fun n => (n, { c.core n with store := [], storeFree := some (free + n) }) }

/-- The regions' records applied in order. -/
def State.restoreRegions (s : State) (bs : List Byte) (rs : List (Nat × Region)) (offs : List Nat) (free : Nat) : State :=
  (rs.zip offs).foldl (fun s p =>
    p.1.2.clusters.zipIdx.foldl (fun s k => s.modCl k.1 fun c => c.restore bs (p.2 + 64 + 1024 * k.2) (free + 1024 * k.1)) s) s

/-- The cinch section applied: values, then the watches. -/
def State.restoreCinch (s : State) (x : Nat) (blocks : List SavedBlock) (watches : List Nat) : State :=
  let s := blocks.foldl (fun s b => s.restoreBlock x b) s
  let drop := fun (s : State) u => s.modCinch u fun c =>
    { c with watches := c.watches.filter (fun w => w.ctx != x),
             barriers := c.barriers.filter fun b => c.physical x b.vid != some b.cinch }
  watches.foldl (fun s w => s.restoreWatch x w) (drop (drop s 0) 1)

/-- RESTORE_CONTEXT (R383): the image is read whole, checked, and then applied. -/
def execRestoreContext (x : Ctx) (seq : W32) (s : State) : Res :=
  .next (match s.startCmd x.val seq 13 with
    | none => s
    | some (d, s) =>
      let x := x.val
      let rs := s.ownedRegions x
      let ns := rs.map fun r => r.2.clusters.length
      let offs := recordOffsets 64 ns
      let ring := offs.getLast?.getD 64
      let f := s.fetchBytes x 0 (dImage d) (ring + 80)
      if f.status ≠ 0 then f.s.complete x seq stMemoryFault 0
      else
        let bs := f.bytes.map (·.1)
        let h := imageWord bs 0 64
        let c := imageWord bs (ring + 64) 16
        let nb := field c 40 32
        let nw := field c 54 41
        let ok := field h 31 0 == 0x43545853 && field h 39 32 == 1 && field h 53 46 == rs.length && regionsAgree bs ns
          && field c 31 0 == 0x434E4348 && decide (nb ≤ 256 ∧ nw ≤ 8192)
        if !ok || f.bytes.any (·.2) then f.s.complete x seq stMismatch 0
        else
          let g := f.s.fetchBytes x 0 (dImage d + ring + 80) (136 * nb + 32 * nw)
          if g.status ≠ 0 then g.s.complete x seq stMemoryFault 0
          else
            let cs := g.bytes.map (·.1)
            let blocks := savedBlocks cs 0 nb
            if g.bytes.any (·.2) || !blocks.all (fun b => (g.s.mappedBlocks x).contains b.vid) then g.s.complete x seq stMismatch 0
            else
              let r := g.s.freshN 327680
              let s := (r.2.restoreRegions bs rs offs r.1).loseRows (rs.flatMap fun p => p.2.clusters)
              let s := s.restoreCinch x blocks ((upto nw).map fun i => imageWord cs (136 * nb + 32 * i) 32)
              s.complete x seq stSuccess 0)

end Sys2Proof.Machine
end

