-- ==== Sys2Proof/Machine/TimeLoad.lean ====
section
/-! DEFINITION. The load of the machine-time counter and the calendar entries that it skips (R65 step 3, R66). -/
namespace Sys2Proof.Machine

/-- An execution that R25 orders: its beat, its rank, and the command that carries it out. -/
structure Execution where
  beat : BitVec 48
  rank : Nat
  command : State → Res

/-- A number as a cluster or a trunk. -/
def asCl (n : Nat) : Cl := ⟨n % 320, Nat.mod_lt n (by decide)⟩
def asTrunk (n : Nat) : Fin 6 := ⟨n % 6, Nat.mod_lt n (by decide)⟩

/-- The region of a cluster as an operand; region 0 where it has none, whose command then finds nothing due. -/
def State.asRegion (s : State) (k : Nat) : Rg :=
  let r := ((s.regionOf? k).map (·.1)).getD 0
  ⟨r % 128, Nat.mod_lt r (by decide)⟩

/-- The trunk of a page. -/
def trunkOfPage (n : Nat) : Nat := (firstSome (fun t => pgTrunk t == n) (upto 6)).getD 0

/-- The command that executes entries of an action in a calendar (R61). -/
def State.commandOf (s : State) (page action : Nat) : State → Res :=
  let k := (page - 0x4000) / 0x40
  match action with
  | 1 => execFoldSwitch (asCl k)
  | 2 => execRegionCommit (s.asRegion k)
  | 3 => execTaskStart (s.asRegion k)
  | 4 => execBarrierDeadline (asCl k)
  | 5 => execDomainRaise (asCl k)
  | 6 => execDomainLower (asCl k)
  | 0x10 => execPowerStepUp
  | 0x11 => execPowerStepDown
  | 0x12 => execForecast
  | 0x20 => execCircuitOpen (asTrunk (trunkOfPage page))
  | 0x21 => execCircuitClose (asTrunk (trunkOfPage page))
  | _ => fun s => .next s

/-- Every execution that is pending, with its command. -/
def State.pendingExecutions (s : State) : List Execution :=
  (s.cals.flatMap fun c => (c.2.filter (s.awaited c.1)).map fun e => ⟨e.beat, actionRank e.action, s.commandOf c.1 e.action⟩)
  ++ (s.clusters.flatMap fun c =>
      (c.2.armed.map fun a => ⟨a.beat, armedRank, execScheduleEntry (asCl c.1)⟩)
      ++ c.2.barriers.filterMap fun w => w.deadline.map fun d => ⟨d, actionRank 4, execBarrierDeadline (asCl c.1)⟩)

/-- Whether execution `a` comes before `b` (R25). -/
def Execution.before (now : BitVec 48) (a b : Execution) : Bool :=
  decide (beatKey now a.beat < beatKey now b.beat) || (a.beat == b.beat && decide (a.rank < b.rank))

/-- The first execution whose beat lies before the present one. -/
def State.skippedFirst (s : State) : Option Execution :=
  (s.pendingExecutions.filter fun e => decide (beatKey s.beat e.beat < beatKey s.beat s.beat)).foldl
    (fun best e => match best with
      | none => some e
      | some b => if e.before s.beat b then some e else some b) none

/-- The state that a command leaves. -/
def afterCommand (f : State → Res) (s : State) : State :=
  match f s with
  | .next t => t
  | _ => s

/-- Skipped executions run in order (R66). `fuel` bounds their number. -/
def State.runSkipped : (fuel : Nat) → State → State
  | 0, s => s
  | fuel + 1, s =>
    match s.skippedFirst with
    | none => s
    | some e => State.runSkipped fuel (afterCommand e.command s)

/-- How many executions of an entry, the first at beat `b` and then `left` more every `period` beats, a load at beat `now` skips. -/
def skippedOf (now b : BitVec 48) (period left : Nat) : Nat :=
  if beatDue b now && b != now then
    if period = 0 then 1 else min (left + 1) (((now - b).toNat + period - 1) / period)
  else 0

/-- Executions that a load skips, by the page of their calendar: those of posted entries, of armed fold schedules and of armed
deadlines. -/
def State.skippedCounts (s : State) : List (Nat × Nat) :=
  (s.cals.map fun c => (c.1, c.2.foldl (fun n e => n + skippedOf s.beat e.beat e.period e.left) 0))
  ++ s.clusters.map fun c =>
      let n := c.2.armed.foldl (fun n a => n + skippedOf s.beat a.beat a.period a.left) 0
      (pgClCtrl c.1, c.2.barriers.foldl (fun n w => n + w.deadline.elim 0 fun d => skippedOf s.beat d 0 0) n)

/-- Each skipped execution is counted as late in its calendar's page, and in MTIME's counter 6 (R66, R73). -/
def State.countLate (s : State) : State :=
  s.skippedCounts.foldl (fun s x =>
    if x.2 = 0 then s else (s.modPage x.1 fun g => { g with late := g.late + x.2 }).count pgMtime 6 x.2) s

/-- How many executions can be pending, repeats included. -/
def State.executionBound (s : State) : Nat :=
  s.cals.foldl (fun n c => c.2.foldl (fun n e => n + e.left + 1) n) 0
  + s.clusters.foldl (fun n c => c.2.armed.foldl (fun n a => n + a.left + 1) n + c.2.barriers.length) 0

/-- `MT_OFFSET` of a load from `old` to `new`: signed rounds, saturating (R72). -/
def loadOffset (old new : Nat) : W32 :=
  BitVec.ofInt 32 (clampInt (-(2 ^ 31)) (2 ^ 31 - 1) (((new : Int) - (old : Int)) / 16))

/-- COUNTER_LOAD (R65 step 3, R66): at the boundary that MTREF marks the beat in progress ends, the counter takes the beat that the second frame names, and the
entries whose beats it skips are executed. -/
def execCounterLoad (s : State) : Res :=
  .next (match s.mt.loadDue with
    | none => s
    | some b =>
      if !s.mt.present then s
      else
        let s := s.reachClock s.mt.loadAt
        let old := s.now
        let new := b.toNat * 4096
        let s := if old % 4096 = 0 then s else s.endBeat
        let s := s.modPage pgMtime fun g => { g with latch := g.latch ||| s.heldLevel pgMtime }
        let s := (s.setTime s.clock new).modMt fun m =>
          { m with mode := .synced, unsync := false, offset := loadOffset old new, acquiring := false, firstFrame := none,
                   loadDue := none, mismatch := none, frame := none, epochDone := b }
        let s := s.pulse pgMtime 3
        if old < new then State.runSkipped s.executionBound s.countLate else s)

end Sys2Proof.Machine
end

