-- ==== Sys2Proof/Machine/Dispatch.lean ====
section
/-! DEFINITION. Dispatch: each command to its meaning. -/
namespace Sys2Proof.Machine

/-- A command's effect on everything but the queue. -/
def exec (i : Instr) (s : State) : Host.Outcome State Fault Refusal :=
  match i with
  | .registerWrite req addr value => Sys2Proof.Machine.execRegisterWrite req addr value s
  | .badAccess req addr size isWrite => Sys2Proof.Machine.execBadAccess req addr size isWrite s
  | .ctrClear req page => Sys2Proof.Machine.execCtrClear req page s
  | .counterLowRead req page n => Sys2Proof.Machine.execCounterLowRead req page n s
  | .eventForce req page bits => Sys2Proof.Machine.execEventForce req page bits s
  | .eventLatchClear req page bits => Sys2Proof.Machine.execEventLatchClear req page bits s
  | .errCauseClear req page => Sys2Proof.Machine.execErrCauseClear req page s
  | .lockWrite req page value => Sys2Proof.Machine.execLockWrite req page value s
  | .interruptOffer src => Sys2Proof.Machine.execInterruptOffer src s
  | .claim req t => Sys2Proof.Machine.execClaim req t s
  | .complete req t src => Sys2Proof.Machine.execComplete req t src s
  | .settleEnd src => Sys2Proof.Machine.execSettleEnd src s
  | .offerTimeout src => Sys2Proof.Machine.execOfferTimeout src s
  | .mtsyncFrame frame => Sys2Proof.Machine.execMtsyncFrame frame s
  | .epochCheck => Sys2Proof.Machine.execEpochCheck s
  | .mtrefLoss => Sys2Proof.Machine.execMtrefLoss s
  | .islandCircuitStop => Sys2Proof.Machine.execIslandCircuitStop s
  | .mtrefReturn settled => Sys2Proof.Machine.execMtrefReturn settled s
  | .counterLoad => Sys2Proof.Machine.execCounterLoad s
  | .reacquire req => Sys2Proof.Machine.execReacquire req s
  | .localForce req on => Sys2Proof.Machine.execLocalForce req on s
  | .calPost req page w3 => Sys2Proof.Machine.execCalPost req page w3 s
  | .cancel req page w3 => Sys2Proof.Machine.execCancel req page w3 s
  | .foldSwitch k => Sys2Proof.Machine.execFoldSwitch k s
  | .regionCommit r => Sys2Proof.Machine.execRegionCommit r s
  | .taskStart r => Sys2Proof.Machine.execTaskStart r s
  | .scheduleEntry k => Sys2Proof.Machine.execScheduleEntry k s
  | .barrierDeadline k => Sys2Proof.Machine.execBarrierDeadline k s
  | .domainRaise k => Sys2Proof.Machine.execDomainRaise k s
  | .domainUp k => Sys2Proof.Machine.execDomainUp k s
  | .domainLower k => Sys2Proof.Machine.execDomainLower k s
  | .powerStepUp => Sys2Proof.Machine.execPowerStepUp s
  | .powerStepDown => Sys2Proof.Machine.execPowerStepDown s
  | .forecast => Sys2Proof.Machine.execForecast s
  | .circuitOpen t => Sys2Proof.Machine.execCircuitOpen t s
  | .circuitClose t => Sys2Proof.Machine.execCircuitClose t s
  | .crossingTimeout page request => Sys2Proof.Machine.execCrossingTimeout page request s
  | .islandReset island => Sys2Proof.Machine.execIslandReset island s
  | .dpeFire c => Sys2Proof.Machine.execDpeFire c s
  | .leFire c => Sys2Proof.Machine.execLeFire c s
  | .steer c => Sys2Proof.Machine.execSteer c s
  | .merge c => Sys2Proof.Machine.execMerge c s
  | .forward c => Sys2Proof.Machine.execForward c s
  | .dpeEmission c => Sys2Proof.Machine.execDpeEmission c s
  | .strayToken c e => Sys2Proof.Machine.execStrayToken c e s
  | .tokenArrival c => Sys2Proof.Machine.execTokenArrival c s
  | .portLaunch c p => Sys2Proof.Machine.execPortLaunch c p s
  | .tokenHop c d => Sys2Proof.Machine.execTokenHop c d s
  | .creditReturn p => Sys2Proof.Machine.execCreditReturn p s
  | .slackRowWrite c f => Sys2Proof.Machine.execSlackRowWrite c f s
  | .slackRowRead c f => Sys2Proof.Machine.execSlackRowRead c f s
  | .deadlockWatch r => Sys2Proof.Machine.execDeadlockWatch r s
  | .latticeFeedRead k => Sys2Proof.Machine.execLatticeFeedRead k s
  | .gangRound k => Sys2Proof.Machine.execGangRound k s
  | .gangDrain k => Sys2Proof.Machine.execGangDrain k s
  | .doneToken k => Sys2Proof.Machine.execDoneToken k s
  | .reserveRegion x seq => Sys2Proof.Machine.execReserveRegion x seq s
  | .releaseRegion x seq => Sys2Proof.Machine.execReleaseRegion x seq s
  | .releaseClear r => Sys2Proof.Machine.execReleaseClear r s
  | .loadSection x seq => Sys2Proof.Machine.execLoadSection x seq s
  | .loadDrainStart r => Sys2Proof.Machine.execLoadDrainStart r s
  | .drainFoldMove k => Sys2Proof.Machine.execDrainFoldMove k s
  | .regionClose r => Sys2Proof.Machine.execRegionClose r s
  | .drainTimeout r => Sys2Proof.Machine.execDrainTimeout r s
  | .sectionStaging r => Sys2Proof.Machine.execSectionStaging r s
  | .configLoadWrite r => Sys2Proof.Machine.execConfigLoadWrite r s
  | .runTask x seq => Sys2Proof.Machine.execRunTask x seq s
  | .fence x seq => Sys2Proof.Machine.execFence x seq s
  | .cmdCinchSet x seq => Sys2Proof.Machine.execCmdCinchSet x seq s
  | .cmdCinchAdd x seq => Sys2Proof.Machine.execCmdCinchAdd x seq s
  | .cinchWait x seq => Sys2Proof.Machine.execCinchWait x seq s
  | .cinchWaitTimeout x seq => Sys2Proof.Machine.execCinchWaitTimeout x seq s
  | .copy x seq => Sys2Proof.Machine.execCopy x seq s
  | .fill x seq => Sys2Proof.Machine.execFill x seq s
  | .query x seq => Sys2Proof.Machine.execQuery x seq s
  | .saveContext x seq => Sys2Proof.Machine.execSaveContext x seq s
  | .restoreContext x seq => Sys2Proof.Machine.execRestoreContext x seq s
  | .setBudget x seq => Sys2Proof.Machine.execSetBudget x seq s
  | .arbiterGrant k p unmarked => Sys2Proof.Machine.execArbiterGrant k p unmarked s
  | .scoreboardRelease k r => Sys2Proof.Machine.execScoreboardRelease k r s
  | .handleWrite req k h word value => Sys2Proof.Machine.execHandleWrite req k h word value s
  | .fcPost req k w3 => Sys2Proof.Machine.execFcPost req k w3 s
  | .rowFill k => Sys2Proof.Machine.execRowFill k s
  | .rowCopy k => Sys2Proof.Machine.execRowCopy k s
  | .remoteWrite p => Sys2Proof.Machine.execRemoteWrite p s
  | .remoteRead p => Sys2Proof.Machine.execRemoteRead p s
  | .notificationSend k h => Sys2Proof.Machine.execNotificationSend k h s
  | .ringReserve p => Sys2Proof.Machine.execRingReserve p s
  | .ringPlace p => Sys2Proof.Machine.execRingPlace p s
  | .ringRetry p => Sys2Proof.Machine.execRingRetry p s
  | .ringRelease req k h rows => Sys2Proof.Machine.execRingRelease req k h rows s
  | .ringWaitTimeout k h => Sys2Proof.Machine.execRingWaitTimeout k h s
  | .gather k => Sys2Proof.Machine.execGather k s
  | .feDescriptorStart k e => Sys2Proof.Machine.execFeDescriptorStart k e s
  | .feDescriptorDone k e => Sys2Proof.Machine.execFeDescriptorDone k e s
  | .granuleWrite req io d value => Sys2Proof.Machine.execGranuleWrite req io d value s
  | .rcProbe req d => Sys2Proof.Machine.execRcProbe req d s
  | .keepClear req d => Sys2Proof.Machine.execKeepClear req d s
  | .read p => Sys2Proof.Machine.execRead p s
  | .write p => Sys2Proof.Machine.execWrite p s
  | .readData p => Sys2Proof.Machine.execReadData p s
  | .writeAck p => Sys2Proof.Machine.execWriteAck p s
  | .error p => Sys2Proof.Machine.execError p s
  | .requestTimeout k site => Sys2Proof.Machine.execRequestTimeout k site s
  | .recordDispatch k => Sys2Proof.Machine.execRecordDispatch k s
  | .streamStart k => Sys2Proof.Machine.execStreamStart k s
  | .loadQToken k slot => Sys2Proof.Machine.execLoadQToken k slot s
  | .streamDone k slot => Sys2Proof.Machine.execStreamDone k slot s
  | .taskStop r => Sys2Proof.Machine.execTaskStop r s
  | .taskEndEarly r => Sys2Proof.Machine.execTaskEndEarly r s
  | .taskEnd r => Sys2Proof.Machine.execTaskEnd r s
  | .beatLimit r => Sys2Proof.Machine.execBeatLimit r s
  | .tap k n => Sys2Proof.Machine.execTap k n s
  | .source k n => Sys2Proof.Machine.execSource k n s
  | .scrubChunk d u found => Sys2Proof.Machine.execScrubChunk d u found s
  | .scrubAudit d => Sys2Proof.Machine.execScrubAudit d s
  | .packetHop r out => Sys2Proof.Machine.execPacketHop r out s
  | .stitch r p => Sys2Proof.Machine.execStitch r p s
  | .stitchHoldExpiry r => Sys2Proof.Machine.execStitchHoldExpiry r s
  | .stitchCombine p => Sys2Proof.Machine.execStitchCombine p s
  | .stitchAck p => Sys2Proof.Machine.execStitchAck p s
  | .send k => Sys2Proof.Machine.execSend k s
  | .regRead p => Sys2Proof.Machine.execRegRead p s
  | .regWrite p => Sys2Proof.Machine.execRegWrite p s
  | .cinchAdd p => Sys2Proof.Machine.execCinchAdd p s
  | .cinchSet p => Sys2Proof.Machine.execCinchSet p s
  | .cinchRead p => Sys2Proof.Machine.execCinchRead p s
  | .cinchWatch p => Sys2Proof.Machine.execCinchWatch p s
  | .cinchCancel p => Sys2Proof.Machine.execCinchCancel p s
  | .cinchArrive p => Sys2Proof.Machine.execCinchArrive p s
  | .cinchResp p => Sys2Proof.Machine.execCinchResp p s
  | .cinchWake p => Sys2Proof.Machine.execCinchWake p s
  | .wakeTokenWrite k => Sys2Proof.Machine.execWakeTokenWrite k s
  | .barrierRelease p => Sys2Proof.Machine.execBarrierRelease p s
  | .cinchListIssue k => Sys2Proof.Machine.execCinchListIssue k s
  | .retryRepresent k => Sys2Proof.Machine.execRetryRepresent k s
  | .wakePop req t => Sys2Proof.Machine.execWakePop req t s
  | .wakeRetarget req u value => Sys2Proof.Machine.execWakeRetarget req u value s
  | .xltWrite req u value => Sys2Proof.Machine.execXltWrite req u value s
  | .contextEnable req x value => Sys2Proof.Machine.execContextEnable req x value s
  | .contextDisable req x value => Sys2Proof.Machine.execContextDisable req x value s
  | .sqDoorbell req x value => Sys2Proof.Machine.execSqDoorbell req x value s
  | .cqDoorbell req x value => Sys2Proof.Machine.execCqDoorbell req x value s
  | .descriptorFetch x => Sys2Proof.Machine.execDescriptorFetch x s
  | .completionWrite x => Sys2Proof.Machine.execCompletionWrite x s
  | .xltInval req x => Sys2Proof.Machine.execXltInval req x s
  | .biasChange req value => Sys2Proof.Machine.execBiasChange req value s
  | .cxlMemRequest range off data => Sys2Proof.Machine.execCxlMemRequest range off data s
  | .contextMove x => Sys2Proof.Machine.execContextMove x s
  | .grantRequest => Sys2Proof.Machine.execGrantRequest s
  | .grantArrival => Sys2Proof.Machine.execGrantArrival s
  | .beWithdraw => Sys2Proof.Machine.execBeWithdraw s
  | .hold req x on => Sys2Proof.Machine.execHold req x on s
  | .affinityProbe req x => Sys2Proof.Machine.execAffinityProbe req x s
  | .shedEntry cause => Sys2Proof.Machine.execShedEntry cause s
  | .shedEnd cause => Sys2Proof.Machine.execShedEnd cause s
  | .quiesce => Sys2Proof.Machine.execQuiesce s
  | .limiterTrip overPeak => Sys2Proof.Machine.execLimiterTrip overPeak s
  | .thermalWarning u temp => Sys2Proof.Machine.execThermalWarning u temp s
  | .thermalTrip u temp => Sys2Proof.Machine.execThermalTrip u temp s
  | .thermalTripEnd u => Sys2Proof.Machine.execThermalTripEnd u s
  | .thermalCritical u temp => Sys2Proof.Machine.execThermalCritical u temp s
  | .mgmtStale => Sys2Proof.Machine.execMgmtStale s
  | .heartbeat req => Sys2Proof.Machine.execHeartbeat req s
  | .forecastMessage notice => Sys2Proof.Machine.execForecastMessage notice s
  | .reservePowerTimeout x seq => Sys2Proof.Machine.execReservePowerTimeout x seq s
  | .dataFrame l frame => Sys2Proof.Machine.execDataFrame l frame s
  | .replay l ack => Sys2Proof.Machine.execReplay l ack s
  | .retrain l cause => Sys2Proof.Machine.execRetrain l cause s
  | .linkTraining l info => Sys2Proof.Machine.execLinkTraining l info s
  | .trainingRestart l => Sys2Proof.Machine.execTrainingRestart l s
  | .laneFail l lane => Sys2Proof.Machine.execLaneFail l lane s
  | .linkEnable req l => Sys2Proof.Machine.execLinkEnable req l s
  | .linkDisable req l => Sys2Proof.Machine.execLinkDisable req l s
  | .laneTest req l lane value => Sys2Proof.Machine.execLaneTest req l lane value s
  | .circuitToken l ch inbound => Sys2Proof.Machine.execCircuitToken l ch inbound s
  | .crossModulePacket d p fromTrunk setB => Sys2Proof.Machine.execCrossModulePacket d p fromTrunk setB s
  | .routeWrite req d value => Sys2Proof.Machine.execRouteWrite req d value s
  | .harnessDone timedOut => Sys2Proof.Machine.execHarnessDone timedOut s
  | .powerOn straps pufOk svcClosed sealOk mtref => Sys2Proof.Machine.execPowerOn straps pufOk svcClosed sealOk mtref s
  | .slotVerify => Sys2Proof.Machine.execSlotVerify s
  | .ioEnable => Sys2Proof.Machine.execIoEnable s
  | .bootRelease => Sys2Proof.Machine.execBootRelease s
  | .perstAssert => Sys2Proof.Machine.execPerstAssert s
  | .perstRelease => Sys2Proof.Machine.execPerstRelease s
  | .mgmtWatchdog m => Sys2Proof.Machine.execMgmtWatchdog m s
  | .confirm req => Sys2Proof.Machine.execConfirm req s
  | .floorRaise req v => Sys2Proof.Machine.execFloorRaise req v s
  | .floorSet req v => Sys2Proof.Machine.execFloorSet req v s
  | .getCerts tag => Sys2Proof.Machine.execGetCerts tag s
  | .attest tag nonce => Sys2Proof.Machine.execAttest tag nonce s
  | .getStatus tag => Sys2Proof.Machine.execGetStatus tag s
  | .replaceTree tag => Sys2Proof.Machine.execReplaceTree tag s
  | .rekey tag => Sys2Proof.Machine.execRekey tag s
  | .loadDikCert tag cert => Sys2Proof.Machine.execLoadDikCert tag cert s
  | .setFloor tag floor => Sys2Proof.Machine.execSetFloor tag floor s
  | .forecastReceived body => Sys2Proof.Machine.execForecastReceived body s
  | .buttonPress => Sys2Proof.Machine.execButtonPress s
  | .windowEnd => Sys2Proof.Machine.execWindowEnd s
  | .sealOpen => Sys2Proof.Machine.execSealOpen s
  | .spareRemove req index => Sys2Proof.Machine.execSpareRemove req index s
  | .fprogAssert => Sys2Proof.Machine.execFprogAssert s
  | .fprogRelease => Sys2Proof.Machine.execFprogRelease s
  | .hardFault f => Sys2Proof.Machine.execHardFault f s
  | .parityError site => Sys2Proof.Machine.execParityError site s
  | .retirement u => Sys2Proof.Machine.execRetirement u s
  | .rowRepair stack pc bank row => Sys2Proof.Machine.execRowRepair stack pc bank row s
  | .fatalError page code => Sys2Proof.Machine.execFatalError page code s
  | .moduleReset => Sys2Proof.Machine.execModuleReset s
  | .selfTest req k => Sys2Proof.Machine.execSelfTest req k s
  | .selfTestEnd k pass => Sys2Proof.Machine.execSelfTestEnd k pass s
  | .limiterEnd => Sys2Proof.Machine.execLimiterEnd s
  | .svcStrapChange closed => Sys2Proof.Machine.execSvcStrapChange closed s
  | .sealIntact => Sys2Proof.Machine.execSealIntact s
  | .msixUnmask v => Sys2Proof.Machine.execMsixUnmask v s
  | .telClear req k j => Sys2Proof.Machine.execTelClear req k j s
  | .affinityProbeDone x => Sys2Proof.Machine.execAffinityProbeDone x s
  | .rcProbeDone d => Sys2Proof.Machine.execRcProbeDone d s
  | .wakeRetargetDone u => Sys2Proof.Machine.execWakeRetargetDone u s
  | .bringUpStep b => Sys2Proof.Machine.execBringUpStep b s
  | .mirrorRefresh => Sys2Proof.Machine.execMirrorRefresh s

end Sys2Proof.Machine
end

