-- ==== Sys2Proof/Machine/Step.lean ====
section
/-! DEFINITION. One step: the command at the front of the queue, or one fabric cycle of idling. -/
namespace Sys2Proof.Machine

/-- The block with nothing to do: one fabric cycle passes (log 3). -/
def State.idle (s : State) : State := s.advance 1

/-- One step: the front of the queue runs on the state with the queue's rest; an empty queue idles (log 3). -/
def step (s : State) : Host.Outcome State Fault Refusal :=
  match s.pending with
  | [] => .next s.idle
  | c :: rest => exec c { s with pending := rest }

/-- The table's words spell no command, so there is none to put in front (log 16). -/
def State.withFetchWord (s : State) (nbits w : Nat) : State :=
  match Sys2Proof.decodeTableWord nbits w with
  | some c => { s with pending := c :: s.pending }
  | none => s

end Sys2Proof.Machine
end

