-- ==== Sys2Proof/Machine/Pins.lean ====
section
/-! DEFINITION. The module's outputs on the connector groups (spec/20): the open-drain outputs, SEAL_OUT, PROBE_CLK, the probe pins, and the
symbols of a lane under test. -/
namespace Sys2Proof.Machine

/-- Whether I/O enable has passed (R453, R500). -/
def Boot.ioUp (b : Boot) : Bool := b.phase == .ioEnabled || b.phase == .released

/-- Whether CFG_FAIL_N, FATAL_N and THERM_N are driven low (R504). -/
def State.cfgFailLow (s : State) : Bool := s.boot.cfgFail
def State.fatalLow (s : State) : Bool := s.boot.fatalLow
def State.thermLow (s : State) : Bool := !s.bridle.tripped.isEmpty

/-- The level of SEAL_OUT, one for each custody sample of 100,000 management cycles (R471, R506; log 49). -/
def State.sealOut (s : State) : Option Bool :=
  if s.boot.powered then some (Config.sealLevel s.boot.boots (s.mgmtClock / 100000)) else none

/-- Whether PROBE_CLK rises in this cycle (R502). -/
def State.probeClkRises (s : State) : Bool := s.boot.ioUp && s.phase == 0

/-- What PROBE[p] carries, `none` where it is high impedance (R500, R508, R509): the value that the selected signal held in cycle 0
of the round (log 49). -/
def State.probePin (s : State) (p : Fin 16) : Option Bool :=
  if s.boot.ioUp then (s.probeNow p.val).map fun x => Config.probeSignal x.1 x.2 s.roundStart else none

/-! ### Pattern generators (R450) -/

/-- The powers of a pattern's polynomial, its constant term left out: PRBS7, 9, 13, 15, 23, 31. -/
def patternTaps (p : Nat) : List Nat := [[7, 6], [9, 5], [13, 12, 2, 1], [15, 14], [23, 18], [31, 28]].getD p []

/-- The next `n` bits of a pattern whose bits so far are `sent`, newest first. -/
def patternBits (p : Nat) : (n : Nat) → (sent : List Bool) → List Bool
  | 0, _ => []
  | n + 1, sent =>
    let b := (patternTaps p).foldl (fun b t => xor b (sent.getD (t - 1) false)) false
    b :: patternBits p n (b :: sent)

/-- Gray-coded PAM4: the levels of bits two by two, the earlier the more significant. -/
def pam4 : List Bool → List Nat
  | a :: b :: rest => (if a then (if b then 2 else 3) else ofBool b) :: pam4 rest
  | _ => []

/-- The first `n` symbols that lane `lane` of link `l` sends under test, none where it is not (log 43). -/
def State.laneSymbols (s : State) (l lane n : Nat) : List Nat :=
  let w := (SMap.getD (s.link l).laneTest lane 0).toNat
  if bitAt w 31 then pam4 (patternBits (field w 29 27) (2 * n) (Config.generatorStart (4 * l + lane))) else []

end Sys2Proof.Machine
end

