-- ==== Sys2Proof/Safety.lean ====
section
/-! DEFINITION. What counts as a safe run: the terms that the statements use. -/
namespace Sys2Proof.Machine

/-! ### Completion -/

/-- Command `c` completes in `s` and what it leaves meets `P`. -/
def Gives (c : Instr) (s : State) (P : State → Prop) : Prop := ∃ t, exec c s = .next t ∧ P t

/-- From `s` to `t` command `seq` of context `x` has completed with this status and IMM (R366, R372): its record waits behind
the earlier ones. -/
def Answered (x : Nat) (seq : W32) (status imm : Nat) (s t : State) : Prop :=
  ∃ c, (s.ctx x).command seq = some c ∧ (t.ctx x).waiting = (s.ctx x).waiting ++ [recordOf c status imm]
    ∧ (t.ctx x).inProgress.length + 1 = (s.ctx x).inProgress.length

/-- Packet `p` is the last that has entered the mesh at its source (R308). -/
def Injected (p : Packet) (t : State) : Prop := ((t.router (entryOf p).1).held.getLast?.map (·.packet)) = some p

/-- Queue `es` once entry `e` has arrived: behind what it holds but for the arrivals of that cycle of higher rank (R79). -/
def withArrival (es : List QueueEntry) (e : QueueEntry) : List QueueEntry :=
  let after := fun (x : QueueEntry) => x.written == e.written && decide (e.rank < x.rank)
  es.filter (fun x => !after x) ++ [e] ++ es.filter after

/-- Event `e` of page `n` has latched. -/
def State.latched (s : State) (n e : Nat) : Bool := (s.page n).latch.getLsbD e

/-- Condition event `e` of page `n` holds. -/
def State.holdsEvent (s : State) (n e : Nat) : Bool := (s.page n).level.getLsbD e

/-! ### Frames -/

/-- The parts of the state: its fields but the queue. -/
inductive Part where
  | out | clock | beats | mgmtClock | freeCount | pages | irq | mt | cals | clusters | probes | flights | lanes | regions | mem | host | boot | ident
  | custody | bridle | mesh | cinch | wakes | harness | ready | spares | tests | energy | moved
deriving DecidableEq, Repr

/-- A part of two states is the same. -/
def State.SamePart (s t : State) : Part → Prop
  | .out => t.out = s.out
  | .clock => t.clock = s.clock
  | .beats => t.beats = s.beats
  | .mgmtClock => t.mgmtClock = s.mgmtClock
  | .freeCount => t.freeCount = s.freeCount
  | .pages => t.pages = s.pages
  | .irq => t.irq = s.irq
  | .mt => t.mt = s.mt
  | .cals => t.cals = s.cals
  | .clusters => t.clusters = s.clusters
  | .probes => t.probes = s.probes
  | .flights => t.flights = s.flights
  | .lanes => t.lanes = s.lanes
  | .regions => t.regions = s.regions
  | .mem => t.mem = s.mem
  | .host => t.host = s.host
  | .boot => t.boot = s.boot
  | .ident => t.ident = s.ident
  | .custody => t.custody = s.custody
  | .bridle => t.bridle = s.bridle
  | .mesh => t.mesh = s.mesh
  | .cinch => t.cinch = s.cinch
  | .wakes => t.wakes = s.wakes
  | .harness => t.harness = s.harness
  | .ready => t.ready = s.ready
  | .spares => t.spares = s.spares
  | .tests => t.tests = s.tests
  | .energy => t.energy = s.energy
  | .moved => t.moved = s.moved

/-- From `s` to `t` at most the listed parts change; the queue does not. -/
def ChangesOnly (ps : List Part) (s t : State) : Prop := t.pending = s.pending ∧ ∀ p, p ∉ ps → s.SamePart t p

/-- What the passing of time changes: time, the counters and meters that count by the beat, the bytes moved in it. -/
def timeParts : List Part := [.clock, .beats, .pages, .mt, .energy, .moved]

/-- The frame of a command: whenever it answers a next state, at most the listed parts have changed. -/
def Frame (c : Instr) (ps : List Part) : Prop := ∀ s t, exec c s = .next t → ChangesOnly ps s t

/-- The parts that a command may change. -/
def partsOf (c : Instr) : List Part :=
  match c with
  | .registerWrite .. | .regWrite .. =>
    timeParts ++ [.out, .irq, .cals, .clusters, .probes, .regions, .mem, .host, .boot, .custody, .bridle, .mesh, .cinch, .harness, .spares, .tests]
  | .badAccess .. => [.out, .pages, .irq, .clusters, .host, .mesh, .cinch, .wakes]
  | .ctrClear .. => [.pages, .clusters, .host, .energy]
  | .counterLowRead .. => [.out, .pages, .clusters]
  | .eventForce .. | .errCauseClear .. | .strayToken .. | .slackRowWrite .. | .latticeFeedRead .. | .handleWrite ..
    | .fcPost .. | .notificationSend .. | .loadQToken .. | .wakeTokenWrite .. => [.pages, .clusters]
  | .eventLatchClear .. => [.pages, .irq, .clusters]
  | .lockWrite .. => [.pages, .probes, .custody]
  | .interruptOffer .. => [.out, .irq, .host]
  | .claim .. => [.out, .irq]
  | .complete .. | .mirrorRefresh .. => [.pages, .irq]
  | .settleEnd .. => timeParts ++ [.irq]
  | .offerTimeout .. => timeParts ++ [.out, .irq, .host]
  | .mtsyncFrame .. => [.pages, .mt]
  | .epochCheck .. | .mtrefLoss .. | .mtrefReturn .. => timeParts
  | .islandCircuitStop .. | .retrain .. => timeParts ++ [.harness]
  | .counterLoad .. => timeParts ++ [.out, .freeCount, .cals, .clusters, .lanes, .regions, .host, .bridle, .harness]
  | .reacquire .. => [.mt]
  | .localForce .. => timeParts ++ [.custody]
  | .calPost .. => [.pages, .cals, .bridle]
  | .cancel .. => [.pages, .cals]
  | .foldSwitch .. | .barrierDeadline .. | .domainRaise .. | .domainLower .. => timeParts ++ [.cals, .clusters]
  | .regionCommit .. => timeParts ++ [.freeCount, .cals, .clusters, .lanes, .regions, .host, .harness]
  | .taskStart .. => timeParts ++ [.freeCount, .cals, .clusters, .lanes, .regions, .host, .bridle, .harness]
  | .scheduleEntry .. | .dpeFire .. | .leFire .. | .steer .. | .merge .. | .forward .. | .dpeEmission ..
    | .tokenArrival .. | .slackRowRead .. | .gangRound .. | .gangDrain .. | .doneToken .. | .drainFoldMove ..
    | .arbiterGrant .. | .scoreboardRelease .. => timeParts ++ [.clusters]
  | .domainUp .. | .reservePowerTimeout .. => timeParts ++ [.freeCount, .clusters, .regions, .host, .tests]
  | .powerStepUp .. | .powerStepDown .. => timeParts ++ [.cals]
  | .forecast .. => timeParts ++ [.cals, .bridle]
  | .circuitOpen .. => timeParts ++ [.out, .cals, .harness]
  | .circuitClose .. => timeParts ++ [.cals, .harness]
  | .crossingTimeout .. => timeParts ++ [.clusters, .regions, .boot, .mesh]
  | .islandReset .. =>
    timeParts ++ [.mgmtClock, .freeCount, .irq, .cals, .clusters, .probes, .regions, .mem, .host, .boot, .ident, .custody, .mesh, .cinch, .wakes, .harness, .ready, .tests]
  | .portLaunch .. => timeParts ++ [.clusters, .flights, .regions]
  | .tokenHop .. | .source .. => timeParts ++ [.clusters, .flights, .lanes, .regions]
  | .creditReturn .. => timeParts ++ [.clusters, .lanes, .harness]
  | .deadlockWatch .. | .loadDrainStart .. | .taskStop .. | .beatLimit .. => timeParts ++ [.clusters, .regions]
  | .reserveRegion .. => [.freeCount, .pages, .clusters, .regions, .host, .tests]
  | .releaseRegion .. => timeParts ++ [.cals, .clusters, .regions, .host, .bridle]
  | .releaseClear .. => timeParts ++ [.freeCount, .clusters, .regions, .host, .spares, .tests]
  | .loadSection .. => [.freeCount, .pages, .clusters, .regions, .host]
  | .regionClose .. | .configLoadWrite .. => timeParts ++ [.cals, .clusters, .regions]
  | .drainTimeout .. => timeParts ++ [.clusters, .regions, .host]
  | .sectionStaging .. => timeParts ++ [.clusters, .regions, .mem, .host]
  | .runTask .. => [.freeCount, .pages, .clusters, .regions, .mem, .host, .bridle, .moved]
  | .fence .. | .query .. | .setBudget .. | .affinityProbe .. | .affinityProbeDone .. => [.pages, .host]
  | .cmdCinchSet .. | .cmdCinchAdd .. | .cinchWait .. => [.host, .mesh]
  | .cinchWaitTimeout .. => timeParts ++ [.host, .mesh]
  | .copy .. => [.freeCount, .pages, .clusters, .mem, .host, .moved]
  | .fill .. | .saveContext .. => [.pages, .clusters, .mem, .host, .moved]
  | .restoreContext .. => [.freeCount, .pages, .clusters, .mem, .host, .mesh, .cinch, .wakes, .moved]
  | .rowFill .. | .rowCopy .. => [.pages, .clusters, .regions]
  | .remoteWrite .. | .remoteRead .. | .ringReserve .. | .ringRetry .. | .ringWaitTimeout .. | .barrierRelease ..
    | .retryRepresent .. => timeParts ++ [.clusters, .mesh]
  | .ringPlace .. | .readData .. | .writeAck .. => timeParts ++ [.clusters, .regions, .mem, .host, .mesh]
  | .ringRelease .. => [.pages, .clusters, .mesh]
  | .gather .. => [.freeCount, .pages, .clusters, .regions, .mem, .host, .moved]
  | .feDescriptorStart .. => [.freeCount, .pages, .clusters, .regions]
  | .feDescriptorDone .. => [.freeCount, .pages, .clusters]
  | .granuleWrite .. | .keepClear .. => [.mem]
  | .rcProbe .. | .scrubChunk .. | .rcProbeDone .. => [.pages, .mem]
  | .read .. | .write .. => timeParts ++ [.clusters, .mem, .host, .mesh]
  | .error .. | .stitchAck .. => timeParts ++ [.clusters, .regions, .mesh]
  | .requestTimeout .. => timeParts ++ [.freeCount, .clusters, .regions, .mem, .host]
  | .recordDispatch .. => [.pages, .clusters, .regions, .mem, .host, .moved]
  | .streamStart .. | .streamDone .. | .send .. | .cinchListIssue .. => [.pages, .clusters, .regions, .mem, .host, .mesh, .moved]
  | .taskEndEarly .. => [.pages, .clusters, .regions, .host, .bridle, .mesh]
  | .taskEnd .. => timeParts ++ [.clusters, .regions, .host, .bridle, .mesh]
  | .tap .. => [.pages, .clusters, .lanes, .regions]
  | .scrubAudit .. => timeParts ++ [.mem]
  | .packetHop .. | .stitch .. => timeParts ++ [.boot, .mesh]
  | .stitchHoldExpiry .. => timeParts ++ [.mesh]
  | .stitchCombine .. => timeParts ++ [.clusters, .mem, .mesh]
  | .regRead .. => timeParts ++ [.irq, .clusters, .host, .mesh, .cinch, .wakes]
  | .cinchAdd .. | .cinchSet .. | .cinchRead .. | .cinchWatch .. | .cinchArrive .. => timeParts ++ [.mesh, .cinch, .wakes]
  | .cinchCancel .. => timeParts ++ [.host, .mesh, .cinch, .wakes]
  | .cinchResp .. => timeParts ++ [.clusters, .regions, .host, .mesh]
  | .cinchWake .. => timeParts ++ [.clusters, .mesh, .wakes]
  | .wakePop .. => [.out, .pages, .host, .mesh, .cinch, .wakes]
  | .wakeRetarget .. | .xltWrite .. => [.pages, .cinch]
  | .contextEnable .. | .contextDisable .. => [.pages, .irq, .probes, .host, .custody]
  | .sqDoorbell .. => [.pages]
  | .cqDoorbell .. => [.out, .pages, .host]
  | .descriptorFetch .. => [.pages, .host, .moved]
  | .completionWrite .. => [.out, .pages, .host, .moved]
  | .xltInval .. | .biasChange .. | .contextMove .. => [.host]
  | .cxlMemRequest .. => [.out, .pages, .mem]
  | .grantRequest .. => [.pages, .clusters, .regions, .mem, .host, .bridle, .moved]
  | .grantArrival .. | .beWithdraw .. | .hold .. => [.pages, .cals, .clusters, .regions, .bridle]
  | .shedEntry .. | .shedEnd .. | .thermalTrip .. | .thermalTripEnd .. | .mgmtStale .. => timeParts ++ [.bridle]
  | .quiesce .. | .thermalCritical .. => timeParts ++ [.clusters, .boot]
  | .limiterTrip .. => [.pages, .clusters, .bridle]
  | .thermalWarning .. | .heartbeat .. => [.pages, .bridle]
  | .forecastMessage .. => [.out, .bridle]
  | .dataFrame .. => [.out, .pages, .clusters, .regions, .mesh, .harness, .moved]
  | .replay .. => [.out, .pages, .harness, .moved]
  | .linkTraining .. => [.out, .pages, .harness, .spares, .moved]
  | .trainingRestart .. => [.mgmtClock, .harness]
  | .laneFail .. => [.pages, .harness, .spares]
  | .linkEnable .. | .linkDisable .. => [.pages, .harness]
  | .laneTest .. => [.pages, .custody, .harness]
  | .circuitToken .. => timeParts ++ [.out, .flights, .harness]
  | .crossModulePacket .. => timeParts ++ [.out, .mesh, .harness]
  | .routeWrite .. => [.harness]
  | .harnessDone .. => [.mgmtClock, .pages, .harness]
  | .powerOn .. =>
    [.mgmtClock, .pages, .irq, .mt, .cals, .clusters, .probes, .flights, .lanes, .regions, .mem, .host, .boot, .ident, .custody, .bridle, .mesh, .cinch, .wakes, .harness, .ready, .spares, .tests, .energy, .moved]
  | .slotVerify .. | .fprogRelease .. | .fatalError .. => [.pages, .boot]
  | .ioEnable .. => [.pages, .boot, .harness]
  | .bootRelease .. => [.out, .pages, .clusters, .host, .boot, .bridle]
  | .perstAssert .. | .moduleReset .. =>
    timeParts ++ [.freeCount, .irq, .cals, .clusters, .probes, .flights, .lanes, .regions, .mem, .host, .boot, .bridle, .mesh, .cinch, .wakes, .harness, .ready, .spares, .tests]
  | .perstRelease .. | .confirm .. | .floorRaise .. => [.boot]
  | .mgmtWatchdog .. | .fprogAssert .. => [.pages, .irq, .cals, .clusters, .boot, .ident, .custody, .tests, .energy]
  | .floorSet .. => [.pages, .boot, .custody]
  | .getCerts .. | .getStatus .. => [.out, .ident]
  | .attest .. => [.out, .pages, .ident]
  | .replaceTree .. | .rekey .. | .loadDikCert .. => [.out, .pages, .ident, .custody]
  | .setFloor .. => [.out, .pages, .boot, .ident, .custody]
  | .forecastReceived .. => []
  | .buttonPress .. | .sealOpen .. | .svcStrapChange .. | .sealIntact .. => [.pages, .custody]
  | .windowEnd .. => [.mgmtClock, .pages, .custody]
  | .spareRemove .. => [.pages, .custody, .spares]
  | .hardFault .. => [.pages, .clusters, .regions, .harness, .spares]
  | .parityError .. => [.pages, .clusters, .regions, .mem, .mesh, .cinch, .spares]
  | .retirement .. => timeParts ++ [.clusters, .spares]
  | .rowRepair .. => [.spares]
  | .selfTest .. => [.pages, .clusters, .tests]
  | .selfTestEnd .. => timeParts ++ [.clusters, .tests]
  | .limiterEnd .. => [.clusters, .bridle]
  | .msixUnmask .. => [.out, .host]
  | .telClear .. => [.clusters]
  | .wakeRetargetDone .. => [.pages, .mesh, .cinch, .wakes]
  | .bringUpStep .. => [.pages, .ready]

/-- Every page but those of the list reads as before. -/
def OnlyPages (ns : List Nat) (s t : State) : Prop := ∀ n, n ∉ ns → t.page n = s.page n

/-- Every cluster but those of the list is as before. -/
def OnlyClusters (ks : List Nat) (s t : State) : Prop := ∀ k, k ∉ ks → t.cl k = s.cl k

/-- The byte that device memory holds at a stored address (R271). -/
def State.memByte (s : State) (a : Nat) : Byte := memRead s.mem.bytes a

/-- The `n` bytes of device memory from stored address `a` up. -/
def State.memBytes (s : State) (a n : Nat) : List Byte := (upto n).map fun i => s.memByte (a + i)

/-- Context `x` may read, or write, every one of the `n` bytes from `a` up, which lie in LPDDR5X (R276, R281). -/
def State.mayAccess (s : State) (x a n : Nat) (isWrite : Bool) : Bool :=
  (upto n).all fun i => (match placeOf (a + i) with | .lpddr _ _ => true | _ => false) && s.memStatus x (a + i) isWrite == 0

/-- Counter `c` of page `n`, as counted (R38). -/
def State.counterOf (s : State) (n c : Nat) : W64 := (s.page n).counter c

/-! ### Opportunities -/

/-- The state at engine `e`'s next opportunity: the cycle is reached, slack paths have moved their tokens, full shares are
counted (R180, R517). -/
def opportunityOf (id : CoreId) (e : Nat) (s : State) : State :=
  let k := id.k.val
  let n := coreNum id
  let u := s.reachTurn k n e
  let u := u.modCore k n (·.settleSlack u.clock)
  u.modCore k n (·.countFull (u.cl k).activeFold (u.telShift k n) u.clock)

/-! ### Invariants -/

/-- The invariant of device and host memory: the canonical form of their byte lists (log 5). -/
def MemoryInv (s : State) : Prop := memWf s.mem.bytes ∧ memWf s.host.bytes

end Sys2Proof.Machine
end

