-- ==== Sys2Proof/Certificates/Slice0/Obligations.lean ====
section
/-! DEFINITION. The statements for the provers. Each says what commands do, from the rules its docstring names. -/
open Sys2Proof Sys2Proof.Machine

/-! ### The queue (log 1, log 3) -/

/-- A step runs the command at the front of the queue on the state with the queue's rest; with an empty queue one fabric
cycle passes, which is the model's choice (log 3). -/
def Obligations.StepRunsFrontCommand : Prop :=
  (∀ (s : State) (c : Instr) (rest : List Instr), s.pending = c :: rest → step s = exec c { s with pending := rest })
  ∧ ∀ s : State, s.pending = [] → step s = .next (s.advance 1)

/-! ### Register pages (spec/02) -/

/-- What the commands on a page's common registers do where the page answers (R8, R9, R22, R33, R37 to R41). An event bit clears
only where its level is 0 and nothing drove it in that cycle (R9, R41), and an error record that is cleared keeps the errors of that
very cycle (R37). A page in reset, and a page that another plane's requester may not write, ignores these commands (R20 to R22,
R33). -/
def Obligations.PageRegistersChange : Prop :=
  ((∀ (req : Req) (addr : BitVec 28) (v : W32) (s : State) (n : Nat), addr.toNat = 4096 * n + 0x14 → s.eventOpen req n = true →
    Gives (.registerWrite req addr v) s fun t =>
      t.page n = { s.page n with enable := v } ∧ OnlyPages [n] s t ∧ ChangesOnly [.pages, .irq] s t)
  ∧ (∀ (req : Req) (page : BitVec 16) (s : State), s.pageOpen req page.toNat = true →
    Gives (.ctrClear req page) s fun t =>
      (∀ c, c < 256 → ¬(page.toNat = pgMtime ∧ c = 0) → t.counterRead page.toNat c = 0)
      ∧ t.mt = s.mt ∧ OnlyPages [page.toNat] (s.settledFor page.toNat) t)
  ∧ (∀ (req : Req) (page : BitVec 16) (n : BitVec 8) (s : State), s.answers req page.toNat = true →
    Gives (.counterLowRead req page n) s fun t =>
      let u := s.settledFor page.toNat
      let v := u.counterRead page.toNat n.toNat
      t.out = s.out ++ [.readValue req.val (BitVec.ofNat 64 (v.toNat % 2 ^ 32))]
      ∧ t.counterWord req.val page.toNat (0x804 + 8 * n.toNat) = v.toNat / 2 ^ 32 ∧ OnlyPages [page.toNat] u t)
  ∧ (∀ (req : Req) (page : BitVec 16) (bits : W32) (s : State), s.eventOpen req page.toNat = true →
    Gives (.eventForce req page bits) s fun t =>
      let g := (s.settledFor page.toNat).page page.toNat
      t.page page.toNat = { g with latch := g.latch ||| bits, driven := (t.page page.toNat).driven }
      ∧ (t.page page.toNat).drivenAt s.clock = g.drivenAt s.clock ||| bits ∧ OnlyPages [page.toNat] (s.settledFor page.toNat) t)
  ∧ (∀ (req : Req) (page : BitVec 16) (bits : W32) (s : State), s.eventOpen req page.toNat = true →
    Gives (.eventLatchClear req page bits) s fun t =>
      let u := s.settledFor page.toNat
      let g := u.page page.toNat
      t.page page.toNat = { g with latch := g.latch &&& ~~~(bits &&& ~~~(u.levelRead page.toNat ||| g.drivenAt s.clock)) }
      ∧ OnlyPages [page.toNat] u t)
  ∧ (∀ (req : Req) (page : BitVec 16) (s : State), s.eventOpen req page.toNat = true →
    Gives (.errCauseClear req page) s fun t =>
      let g := (s.settledFor page.toNat).page page.toNat
      (g.errCycle ≠ s.clock + 1 → t.page page.toNat = { g with err := 0 })
      ∧ (g.errCycle = s.clock + 1 → t.page page.toNat = { g with err := errFold 0 g.errs, errBase := 0 })
      ∧ OnlyPages [page.toNat] (s.settledFor page.toNat) t)
  ∧ ∀ (req : Req) (k : Cl) (j : Fin 32) (s : State), s.pageOpen req (pgTelemetry k.val j.val) = true →
    Gives (.telClear req k j) s fun t =>
      (∀ i, i < 32 → (t.core k.val (32 * i + j.val)).stalls = [])
      ∧ (∀ n, n % 32 ≠ j.val → t.core k.val n = s.core k.val n) ∧ OnlyClusters [k.val] s t)
  ∧ (∀ (req : Req) (page : BitVec 16) (bits : W32) (s : State), (pageInfo page.toNat).isSome = true →
    (s.pageOpen req page.toNat = false → exec (.ctrClear req page) s = .next s)
    ∧ (s.eventOpen req page.toNat = false →
        exec (.eventForce req page bits) s = .next s ∧ exec (.eventLatchClear req page bits) s = .next s
        ∧ exec (.errCauseClear req page) s = .next s)
    ∧ (s.answers req page.toNat = false → ∀ n, exec (.counterLowRead req page n) s = .next (s.emit (.readValue req.val 0))))

/-- An access that the directory or the size rule turns away reads as zero, changes nothing it names, and is recorded in
BAR_DECODE as a corrected error of code 0x01; DEC_ADDR follows the record (R32). An aligned 8-byte read of a counter returns its 64
bits (R38). A crossing that times out is fatal where the crossing serves no single cluster (R69): its page and the MGMT page record
it, viral is set and FATAL_N asserted; a read that waits is answered with zeros marked poisoned. -/
def Obligations.BadAccessesAndCrossingsAreRecorded : Prop :=
  (∀ (req : Req) (addr : BitVec 28) (size : Nat) (isWrite : Bool) (s : State), accessOk addr.toNat size = false →
    Gives (.badAccess req addr size isWrite) s fun t =>
      (t.page pgBarDecode).err = ((s.page pgBarDecode).report s.clock 0 0x01
        (req.val * 4096 + addr.toNat % 4096 / 4 * 4 + (if isWrite then 2 else 0)
          + (if (pageInfo (addr.toNat / 4096)).isNone then 1 else 0))).err
      ∧ t.out = s.out ++ (if isWrite then [] else [.readValue req.val 0])
      ∧ t.reg pgBarDecode 0x40 = (if errTaken (s.page pgBarDecode).err 0 then addr.toNat else s.reg pgBarDecode 0x40)
      ∧ OnlyPages [pgBarDecode] s t ∧ ChangesOnly [.pages, .out] s t)
  ∧ (∀ (req : Req) (addr : BitVec 28) (s : State) (n c : Nat), addr.toNat = 4096 * n + 0x800 + 8 * c → c < 256 →
    s.answers req n = true →
    Gives (.badAccess req addr 8 false) s fun t =>
      t = s.emit (.readValue req.val (BitVec.ofNat 64 ((s.settledFor n).counterRead n c).toNat)))
  ∧ (∀ (page : BitVec 16) (request : Option Packet) (s : State),
    (pageInfo page.toNat).isSome = true → page.toNat < 0x4000 → page.toNat ≠ pgMgmt →
    Gives (.crossingTimeout page request) s fun t =>
      t.boot = { s.boot with viral := true, fatalLow := true } ∧ ChangesOnly (timeParts ++ [.boot, .mesh]) s t
      ∧ ((∀ p, request = some p → s.deliveryOf p = none) →
          (t.page page.toNat).err = ((s.page page.toNat).report s.clock 3 0xF0 0).err
          ∧ (t.page pgMgmt).err = ((s.page pgMgmt).report s.clock 3 0xF0 page.toNat).err ∧ ChangesOnly [.pages, .boot] s t)
      ∧ ∀ p, request = some p → (s.deliveryOf p).isSome = true → p.opcode = 1 →
          Injected (dataOrError p 0 (List.replicate p.len.toNat ⟨0, true⟩)) t)

/-- LOCK is written under custody presence, and a clear is custody action 7; without presence the write is refused, recorded
with code 0xC0 and counted (R35, R474, R475). A CD page defines lock group 0. A probe selection written under presence acts from the next
round on; a pin keeps its value for the round (R508, R509; the signals' values are free, log 49). LOCAL_FORCE is a cw field: under
presence it is written, logged as custody action 6, and treats MTREF as lost; without presence the write is refused (R72,
R474, R475). -/
def Obligations.CustodyGuardsRegisters : Prop :=
  (∀ (req : Req) (page : BitVec 16) (v : W32) (s : State), pageBlock page.toNat = some .cd →
    (s.page page.toNat).inReset = false → BitVec.ofNat 16 v.toNat &&& 1#16 ≠ (s.page page.toNat).lock →
    Gives (.lockWrite req page v) s fun t =>
      (s.custody.present = true → (t.page page.toNat).lock = BitVec.ofNat 16 v.toNat &&& 1#16)
      ∧ (s.custody.present = false →
          t.page page.toNat = (s.page page.toNat).report s.clock 0 0xC0 (req.val * 4096 + 0x20) ∧ t.custody = s.custody
          ∧ t.counterOf pgCustody 0 = s.counterOf pgCustody 0 + 1)
      ∧ ChangesOnly [.pages, .probes, .custody] s t)
  ∧ (∀ (req : Req) (d : Fin 8) (p : Fin 16) (addr : BitVec 28) (v : W32) (s : State), addr.toNat = 4096 * pgCd d.val + 0x100 + 4 * p.val →
    s.answers req (pgCd d.val) = true → s.custody.present = true → (s.page (pgCd d.val)).lock.getLsbD 0 = false →
    field v.toNat 11 0 < 4000 →
    Gives (.registerWrite req addr v) s fun t =>
      bitAt (t.regOf (pgCd d.val) (0x100 + 4 * p.val)) 31 = bitAt v.toNat 31
      ∧ field (t.regOf (pgCd d.val) (0x100 + 4 * p.val)) 11 0 = field v.toNat 11 0
      ∧ (∀ q, t.probePin q = s.probePin q)
      ∧ (s.probes.round ≤ s.roundStart →
          let u := t.advance 16
          u.probePin p = if s.boot.ioUp then (t.probeSel p.val).map (fun x => Config.probeSignal x.1 x.2 u.roundStart) else none))
  ∧ (∀ (req : Req) (on : Bool) (s : State), (s.page pgMtime).inReset = false → s.localForced ≠ on →
    (s.custody.present = true →
      Gives (.localForce req on) s fun t =>
        t.localForced = on ∧ t.custody.acts = s.custody.acts + 1 ∧ (on = true → t.mt.present = false)
        ∧ ChangesOnly (timeParts ++ [.custody]) s t)
    ∧ (s.custody.present = false →
      Gives (.localForce req on) s fun t =>
        t.localForced = s.localForced ∧ t.mt = s.mt ∧ t.custody = s.custody
        ∧ (t.page pgMtime).err = ((s.page pgMtime).report s.clock 0 0xC0 (req.val * 4096 + 0x40)).err ∧ ChangesOnly [.pages] s t))

/-! ### The interrupt controller (R46 to R53) -/

/-- An offer goes to the first eligible target after the rotation pointer, in cyclic order 0 to 18, a source without one waits,
and a reset of the control island sets every pointer to 18 (R48). A source that
stops pending has its offer withdrawn (R46, R48). An offer not claimed within 65,536 system cycles from the next edge of that clock,
which are 131,072 fabric cycles (R6), leaves the target, whose STALE is set and which is then no longer eligible (R48, R50). A read of CLAIM by the target's own core returns the offered source of the highest
priority, lowest number among equals, marks it active, moves its pointer to the target and withdraws its offer; another
requester's read claims nothing, and VALID reads 0 with no offer (R49). COMPLETE naming the target's active source retires it, and it settles; any other
source is ignored and counted in IRQC counter 0 (R51). The settle beat's end lets it be pending again. -/
def Obligations.OffersClaimsAndCompletes : Prop :=
  ((∀ (src : BitVec 16) (s : State) (d : Nat), s.isPending src.toNat = true → (s.source src.toNat).offer = none → d < 19 →
    s.eligible src.toNat (((s.source src.toNat).rot + 1 + d) % 19) = true →
    (∀ i, i < d → s.eligible src.toNat (((s.source src.toNat).rot + 1 + i) % 19) = false) →
    Gives (.interruptOffer src) s fun t =>
      t.source src.toNat = { s.source src.toNat with offer := some (((s.source src.toNat).rot + 1 + d) % 19, s.clock) }
      ∧ (∀ n, n ≠ src.toNat → t.source n = s.source n) ∧ ChangesOnly [.irq, .out, .host] s t)
  ∧ (∀ (src : BitVec 16) (s : State), s.isPending src.toNat = true → (s.source src.toNat).offer = none →
    (∀ tgt, tgt < 19 → s.eligible src.toNat tgt = false) → exec (.interruptOffer src) s = .next s)
  ∧ (∀ (src : BitVec 16) (s : State), s.isPending src.toNat = false → s.summaryOf src.toNat = false →
    (Gives (.interruptOffer src) s fun t => (t.source src.toNat).offer = none)
    ∧ Gives (.offerTimeout src) s fun t => (t.source src.toNat).offer = none ∧ t.pages = s.pages ∧ t.clock = s.clock)
  ∧ (∀ n, (State.reset.source n).rot = 18) ∧ (∀ s : State, Gives (.islandReset .control) s fun t => ∀ n, (t.source n).rot = 18)
  ∧ (∀ (src : BitVec 16) (s : State) (tgt at_ : Nat), (s.source src.toNat).offer = some (tgt, at_) → tgt < 19 →
    s.isPending src.toNat = true →
    Gives (.offerTimeout src) s fun t =>
      t.clock = max s.clock (s.limitAt at_ 2 65536) ∧ at_ + 131072 < s.limitAt at_ 2 65536 ∧ s.limitAt at_ 2 65536 ≤ at_ + 131074
      ∧ bitAt (t.regOf pgIrqc (0x44 + 0x20 * tgt)) 16 = true
      ∧ (∀ n, t.eligible n tgt = false) ∧ ((t.source src.toNat).offer.map (·.1) ≠ some tgt)
      ∧ ChangesOnly (timeParts ++ [.irq, .out, .host]) s t))
  ∧ ((∀ (req : Req) (tgt : Fin 19) (s : State) (n : Nat), (s.page pgIrqc).inReset = false → s.offeredTo n tgt.val = true →
    (∀ m, s.offeredTo m tgt.val = true → m = n ∨ s.claimsBefore n m = true) →
    Gives (.claim req tgt) s fun t =>
      t.out = s.out ++ [.readValue req.val (BitVec.ofNat 64 (2 ^ 31 + n))]
      ∧ (req.val = tgt.val → t.source n = { s.source n with active := some tgt.val, rot := tgt.val, offer := none }
          ∧ SMap.getD t.irq.claimed tgt.val [] = n :: SMap.getD s.irq.claimed tgt.val [])
      ∧ (req.val ≠ tgt.val → t.irq = s.irq) ∧ ChangesOnly [.out, .irq] s t)
  ∧ (∀ (req : Req) (tgt : Fin 19) (s : State), (∀ n, s.offeredTo n tgt.val = false) →
    exec (.claim req tgt) s = .next (s.emit (.readValue req.val 0)))
  ∧ ((∀ (req : Req) (tgt : Fin 19) (src : BitVec 16) (s : State) (rest : List Nat),
    (s.page pgIrqc).inReset = false → SMap.getD s.irq.claimed tgt.val [] = src.toNat :: rest →
    Gives (.complete req tgt src) s fun t =>
      t.source src.toNat = { s.source src.toNat with active := none, settling := some s.clock }
      ∧ SMap.getD t.irq.claimed tgt.val [] = rest ∧ ChangesOnly [.irq] s t)
  ∧ (∀ (req : Req) (tgt : Fin 19) (src : BitVec 16) (s : State),
    (s.page pgIrqc).inReset = false → (SMap.getD s.irq.claimed tgt.val []).head? ≠ some src.toNat →
    exec (.complete req tgt src) s = .next (s.count pgIrqc 0 1))
  ∧ ∀ (src : BitVec 16) (s : State) (at_ : Nat), (s.source src.toNat).settling = some at_ →
    Gives (.settleEnd src) s fun t =>
      t.source src.toNat = { s.source src.toNat with settling := none } ∧ t.clock = max s.clock (at_ + 4096)
      ∧ ChangesOnly (timeParts ++ [.irq]) s t))

/-! ### Machine time (spec/03) -/

/-- A valid frame is kept as the last one; a frame error raises event 5 and counts in counter 2 (R58, R72, R73). At an epoch
boundary, with a frame in state SYNCED and CHECK_EN, an agreeing frame counts as good; the first that disagrees is a
mismatch; a second with the same offset makes the counter unsynchronised. Without a frame, frame-missing is raised (R58,
R59). -/
def Obligations.FramesAndEpochsAreTested : Prop :=
  ((∀ (frame : BitVec 72) (s : State), frameValid frame.toNat = true →
    Gives (.mtsyncFrame frame) s fun t =>
      t.mt.lastBeat = BitVec.ofNat 48 (frame.toNat >>> 16) ∧ t.mt.frame = some (BitVec.ofNat 48 (frame.toNat >>> 16)) ∧ t.mt.heard = true
      ∧ t.mt.holdover = frame.getLsbD 15 ∧ t.mt.counter = s.mt.counter ∧ t.mt.mode = s.mt.mode ∧ ChangesOnly [.mt] s t)
  ∧ ∀ (frame : BitVec 72) (s : State), frameValid frame.toNat = false →
    Gives (.mtsyncFrame frame) s fun t =>
      t.counterOf pgMtime 2 = s.counterOf pgMtime 2 + 1 ∧ (t.page pgMtime).latch = (s.page pgMtime).latch ||| 0x20#32
      ∧ OnlyPages [pgMtime] s t ∧ ChangesOnly [.pages] s t)
  ∧ (∀ (s : State),
    let e := s.mt.nextEpoch
    let u := s.reachBeat e
    (s.mt.heard = false → s.mt.frame = none →
      Gives .epochCheck s fun t => (t.page pgMtime).latch = (u.page pgMtime).latch ||| 0x40#32 ∧ t.mt.unsync = s.mt.unsync
        ∧ t.mt.epochDone = e ∧ ChangesOnly timeParts s t)
    ∧ ∀ b, s.mt.frame = some b → s.mt.mode = .synced → s.mt.unsync = false → bitAt (u.regOf pgMtime 0x40) 0 = true →
      Gives .epochCheck s fun t => t.mt.frame = none ∧ ChangesOnly timeParts s t
        ∧ (b = e → t.counterOf pgMtime 1 = u.counterOf pgMtime 1 + 1 ∧ t.mt.unsync = false ∧ t.mt.mismatch = none)
        ∧ (b ≠ e → t.counterOf pgMtime 3 = u.counterOf pgMtime 3 + 1
            ∧ (s.mt.mismatch = some (b - e) → t.mt.unsync = true ∧ t.mt.mode = .synced)
            ∧ (s.mt.mismatch ≠ some (b - e) → t.mt.unsync = false ∧ t.mt.mismatch = some (b - e))))

/-- Losing MTREF takes the module to ISLAND on the local reference, unsynchronised. Its return makes it present; once it has been so for
65,536 of its periods acquisition starts, in RETURNING from ISLAND. A load, 56 periods after the second frame, to the beat that the
frame names ends in SYNCED (R57, R64, R65, R72). -/
def Obligations.ReferenceIsLostAndReturns : Prop :=
  (∀ s : State, s.mt.present = true →
    Gives .mtrefLoss s fun t =>
      t.mt.mode = .island ∧ t.mt.unsync = true ∧ t.mt.localRef = true ∧ t.mt.present = false ∧ t.now % 16 = 0
      ∧ ChangesOnly timeParts s t)
  ∧ (∀ s : State, s.mt.localRef = true → s.localForced = false →
    let since := if s.mt.present then s.mt.since else s.clock
    exec (.mtrefReturn false) s = .next { s with mt := { s.mt with present := true, since := since } }
    ∧ Gives (.mtrefReturn true) s fun t =>
      t.mt.mode = (if s.mt.mode = .island then .returning else s.mt.mode) ∧ t.mt.localRef = false ∧ t.mt.present = true
      ∧ t.mt.acquiring = true ∧ t.now % 4096 = 0 ∧ since + 65536 * 16 ≤ t.clock ∧ ChangesOnly timeParts s t)
  ∧ (∀ (req : Req) (s : State), (s.page pgMtime).inReset = false → s.mt.present = true →
    s.mt.mode = .synced ∨ s.mt.mode = .island →
    Gives (.reacquire req) s fun t =>
      t.mt = { s.mt with acquiring := true, firstFrame := none, loadDue := none } ∧ ChangesOnly [.mt] s t)
  ∧ ∀ (s : State) (b : BitVec 48), s.mt.loadDue = some b → s.mt.present = true →
    b.toNat * 4096 ≤ (s.reachClock s.mt.loadAt).now →
    Gives .counterLoad s fun t =>
      t.mt.counter = BitVec.ofNat 64 (b.toNat * 4096) ∧ t.mt.mode = .synced ∧ t.mt.unsync = false
      ∧ t.mt.offset = loadOffset (s.reachClock s.mt.loadAt).now (b.toNat * 4096) ∧ t.clock = max s.clock s.mt.loadAt ∧ t.cals = s.cals ∧ ChangesOnly timeParts s t

/-! ### Calendars (R60 to R63) -/

/-- A post that its calendar and its plane allow, with a legal argument, is accepted two beats ahead or later while there is
room; a late one is refused, or moved to two beats ahead where LATE_OK is set; a full calendar gives 1. BAR0 posts nothing
(R61 to R63). An accepted CANCEL removes every posted entry of the named action that is due at its beat, and no other (R62).
-/
def Obligations.PostsAndCancelsAreJudged : Prop :=
  (∀ (req : Req) (page : BitVec 16) (w3 : W32) (s : State) (b : Block) (p : Posted),
    pageBlock page.toNat = some b → b = .clCtrl ∨ b = .trunk → (s.page page.toNat).inReset = false →
    p = postedOf (SMap.getD (s.page page.toNat).windows req.val {}) w3 → p.action ≠ 0xFF →
    let late := ¬(2 ≤ (p.beat - s.beat).toNat ∧ (p.beat - s.beat).toNat < 2 ^ 47)
    let held := s.pruned page.toNat
    Gives (.calPost req page w3) s fun t =>
      let result := (SMap.getD (t.page page.toNat).windows req.val {}).result
      OnlyPages [page.toNat] s t ∧ ChangesOnly [.pages, .cals, .bridle] s t
      ∧ (req.val = 18 → result = 4 ∧ t.cals = s.cals)
      ∧ (req.val < 18 → actionFits b p.action = true → actionMgmt p.action = isMgmtReq req → p.zero = 0 →
          argOk p.action p.arg.toNat = true →
          (late → p.lateOk = false → result = 2 ∧ t.cals = s.cals)
          ∧ ((¬late ∨ p.lateOk = true) → 64 ≤ held.length → result = 1 ∧ t.cals = s.cals)
          ∧ (¬late → held.length < 64 →
              result = 0 ∧ t.cal page.toNat = held ++ [⟨p.action, p.arg, p.period, p.left, p.beat⟩])
          ∧ (late → p.lateOk = true → held.length < 64 →
              result = 3 ∧ t.cal page.toNat = held ++ [⟨p.action, p.arg, p.period, p.left, s.beat + 2#48⟩])))
  ∧ (∀ (req : Req) (page : BitVec 16) (w3 : W32) (s : State) (p : Posted) (r : Nat),
    s.post? req page.toNat w3 = some (p, r) → p.action = 0xFF →
    Gives (.cancel req page w3) s fun t =>
      (SMap.getD (t.page page.toNat).windows req.val {}).result = r ∧ r ≠ 1
      ∧ (r = 0 ∨ r = 3 → t.cal page.toNat = (s.cal page.toNat).filter fun e =>
          !(e.action == p.arg.toNat % 256 && e.beat == if r = 3 then s.beat + 2#48 else p.beat))
      ∧ (r ≠ 0 → r ≠ 3 → t.cals = s.cals) ∧ OnlyPages [page.toNat] s t ∧ ChangesOnly [.pages, .cals] s t)

/-! ### What a calendar executes (R25, R63) and what its entries do -/

/-- The entry that a calendar executes next is one of its action with the earliest beat; nothing that R25 puts before it is
pending; with its beat reached, it is re-armed by its period while repeats are left, and gone otherwise. Other calendars
stay. -/
def Obligations.EntriesRunInOrder : Prop :=
  ∀ (s : State) (page a : Nat) (e : CalEntry) (u : State), s.takeEntry page a = some (e, u) →
    e.action = a ∧ s.inOrder e.beat (actionRank a) = true
    ∧ (∀ f ∈ s.cal page, f.action = a → beatKey s.beat e.beat ≤ beatKey s.beat f.beat)
    ∧ (∃ i, (s.cal page)[i]? = some e
        ∧ (e.period = 0 ∨ e.left = 0 → u.cal page = (s.cal page).eraseIdx i)
        ∧ (e.period ≠ 0 → e.left ≠ 0 →
            u.cal page = (s.cal page).set i { e with beat := e.beat + BitVec.ofNat 48 e.period, left := e.left - 1 }))
    ∧ ((e.beat - s.beat).toNat < 2 ^ 47 → u.beat = e.beat) ∧ (∀ m, m ≠ page → u.cal m = s.cal m)
    ∧ ChangesOnly (timeParts ++ [.cals]) s u

/-- FOLD_SWITCH and an armed schedule entry switch the active fold with a bubble round of 16 cycles and count in counter 51;
to the active fold, or in a frozen cluster, they do nothing but count in counter 52 (R195, R196). -/
def Obligations.FoldsSwitch : Prop :=
  (∀ (k : Cl) (s u : State) (e : CalEntry), s.takeEntry (pgClCtrl k.val) 1 = some (e, u) →
    Gives (.foldSwitch k) s fun t =>
      let f := e.arg.toNat % 8
      let n := pgClCtrl k.val
      OnlyClusters [k.val] u t ∧ OnlyPages [n] u t
      ∧ ((u.cl k.val).activeFold ≠ f → (u.cl k.val).frozen = false →
          (t.cl k.val).activeFold = f ∧ (t.cl k.val).bubbleEnd = u.clock + 16
          ∧ t.counterOf n 51 = u.counterOf n 51 + 1 ∧ t.counterOf n 52 = u.counterOf n 52)
      ∧ ((u.cl k.val).activeFold = f ∨ (u.cl k.val).frozen = true →
          t.clusters = u.clusters ∧ t.counterOf n 52 = u.counterOf n 52 + 1 ∧ t.counterOf n 51 = u.counterOf n 51))
  ∧ ∀ (k : Cl) (s : State) (i : Nat) (e : ArmedSwitch),
    nextArmed s.beat (s.cl k.val).armed = some (i, e) → s.inOrder e.beat armedRank = true →
    Gives (.scheduleEntry k) s fun t =>
      let u := s.reachBeat e.beat
      let n := pgClCtrl k.val
      (t.cl k.val).armed = afterArmed (s.cl k.val).armed i e ∧ OnlyClusters [k.val] u t ∧ OnlyPages [n] u t
      ∧ ((s.cl k.val).activeFold ≠ e.fold → (s.cl k.val).frozen = false →
          (t.cl k.val).activeFold = e.fold ∧ (t.cl k.val).bubbleEnd = u.clock + 16
          ∧ t.counterOf n 51 = u.counterOf n 51 + 1)
      ∧ ((s.cl k.val).activeFold = e.fold ∨ (s.cl k.val).frozen = true →
          (t.cl k.val).activeFold = (s.cl k.val).activeFold ∧ t.counterOf n 52 = u.counterOf n 52 + 1)

/-- A barrier deadline, armed or posted, finds the waiters of its VID and generation whose release has not come by its beat: each is a
miss, counted in counter 55;
with MISS_RELEASE they are freed, otherwise they go on waiting (R350, R351). -/
def Obligations.BarrierDeadlinesMiss : Prop :=
  ∀ (k : Cl) (s : State),
    (∀ (b : BarrierWaiter) (d : BitVec 48), firstDeadline s.beat (s.cl k.val).barriers = some (b, d) →
      s.cal (pgClCtrl k.val) = [] → s.inOrder d (actionRank 4) = true →
      Gives (.barrierDeadline k) s fun t =>
        let u := s.reachBeat d
        let late := (s.cl k.val).barriers.filter fun x => x.vid == b.vid && x.gen == b.gen && !u.releaseCame k.val x
        t.counterOf (pgClCtrl k.val) 55 = u.counterOf (pgClCtrl k.val) 55 + BitVec.ofNat 64 late.length
        ∧ (late ≠ [] → t.latched (pgClCtrl k.val) 19 = true)
        ∧ (b.missRelease = true → ∀ x ∈ (t.cl k.val).barriers, x.vid = b.vid → x.gen = b.gen → u.releaseCame k.val x = true)
        ∧ (b.missRelease = false → (t.cl k.val).barriers
            = spendDeadline b (s.cl k.val).barriers))
    ∧ ∀ (u : State) (e : CalEntry), (∀ b ∈ (s.cl k.val).barriers, b.deadline = none) →
      s.takeEntry (pgClCtrl k.val) 4 = some (e, u) →
      Gives (.barrierDeadline k) s fun t =>
        let vid := field e.arg.toNat 11 0
        let gen := field e.arg.toNat 27 12
        let late := (s.cl k.val).barriers.filter fun x => x.vid == vid && x.gen == gen && !u.releaseCame k.val x
        t.counterOf (pgClCtrl k.val) 55 = u.counterOf (pgClCtrl k.val) 55 + BitVec.ofNat 64 late.length
        ∧ (bitAt e.arg.toNat 28 = true → ∀ x ∈ (t.cl k.val).barriers, x.vid = vid → x.gen = gen → u.releaseCame k.val x = true)
        ∧ (bitAt e.arg.toNat 28 = false → t.clusters = s.clusters)

/-! ### Power (spec/16) -/

/-- A raise takes an OFF cluster up in sixteen beats and an IDLE one to RUN; the cluster that comes up is in RUN for two
beats, cleared, and then IDLE; a lower to IDLE or OFF is discarded, and counted in the Bridle's counter 7, where the cluster may not go down (R25, R414,
R415). -/
def Obligations.DomainsRiseAndFall : Prop :=
  (∀ (k : Cl) (s u : State) (e : CalEntry), s.takeEntry (pgClCtrl k.val) 5 = some (e, u) →
    Gives (.domainRaise k) s fun t =>
      let want := e.arg.toNat % 4
      OnlyClusters [k.val] u t ∧ t.pages = u.pages
      ∧ ((u.cl k.val).retired = true → t = u)
      ∧ ((u.cl k.val).retired = false → (u.cl k.val).power = .off → want ≠ 0 → (u.cl k.val).raiseDue = none →
          t.cl k.val = { u.cl k.val with raiseDue := some (u.beat + 16#48) })
      ∧ ((u.cl k.val).retired = false → (u.cl k.val).power = .idle → want = 2 → t.cl k.val = { u.cl k.val with power := .run, raised := true })
      ∧ ((u.cl k.val).power = .run → t = u))
  ∧ (∀ (k : Cl) (s : State) (b : BitVec 48), (s.cl k.val).raiseDue = some b →
    Gives (.domainUp k) s fun t =>
      (t.cl k.val).power = .idle ∧ (t.cl k.val).raiseDue = none ∧ (t.cl k.val).rows = [] ∧ (t.cl k.val).rowsFree = none
      ∧ (t.cl k.val).gangDesc = [] ∧ (t.cl k.val).schedule = []
      ∧ t.clock = ((s.reachBeat b).reachBeat (b + 2#48)).clock)
  ∧ ∀ (k : Cl) (s u : State) (e : CalEntry), s.takeEntry (pgClCtrl k.val) 6 = some (e, u) →
    Gives (.domainLower k) s fun t =>
      let want := e.arg.toNat % 4
      OnlyClusters [k.val] u t ∧ OnlyPages [pgBridle] u t
      ∧ (want = 1 →
          (u.keepsPower k.val = false → (u.cl k.val).power = .run →
            t.cl k.val = { u.cl k.val with power := .idle, raised := false } ∧ t.pages = u.pages)
          ∧ (u.keepsPower k.val = true → t.clusters = u.clusters ∧ t.counterOf pgBridle 7 = u.counterOf pgBridle 7 + 1))
      ∧ (want = 0 →
          (u.mayPowerOff k.val = true → (t.cl k.val).power = .off ∧ t.pages = u.pages)
          ∧ (u.mayPowerOff k.val = false → t.clusters = u.clusters ∧ t.counterOf pgBridle 7 = u.counterOf pgBridle 7 + 1))

/-- A power step writes FAC_CAP and FAC_PEAK from its argument (R418); a forecast in its beat announces the greater of its
level and the level booked, and is counted (R421). SET_BUDGET changes the caps where the context may (R370, R418); a
forecast message leaves while FC_REQ is pending, a shed notice always, each with the next sequence number (R421, R422), and none
while Sorrel is stalled (R24). -/
def Obligations.PowerBudgetsAndForecasts : Prop :=
  ((∀ (s u : State) (e : CalEntry), s.takeEntry pgBridle 0x10 = some (e, u) →
    Gives .powerStepUp s fun t => t.brFac = e.arg.toNat ∧ OnlyPages [pgBridle] u t ∧ ChangesOnly [.pages] u t)
  ∧ (∀ (s u : State) (e : CalEntry), s.takeEntry pgBridle 0x11 = some (e, u) →
    Gives .powerStepDown s fun t => t.brFac = e.arg.toNat ∧ OnlyPages [pgBridle] u t ∧ ChangesOnly [.pages] u t)
  ∧ ∀ (s u : State) (e : CalEntry), s.takeEntry pgBridle 0x12 = some (e, u) →
    Gives .forecast s fun t =>
      t.bridle = { u.bridle with announced := max (e.arg.toNat % 65536) (u.baseW + u.bridle.bookedPeak) }
      ∧ t.counterOf pgBridle 2 = u.counterOf pgBridle 2 + 1 ∧ OnlyPages [pgBridle] u t ∧ ChangesOnly [.pages, .bridle] u t)
  ∧ ((∀ (x : Ctx) (seq : W32) (s u : State) (d : Nat), s.startCmd x.val seq 14 = some (d, u) →
    Gives (.setBudget x seq) s fun t =>
      let host := field d 79 64
      let ctx := field d 95 80
      let w := s.brCap
      (bitAt (s.regOf (pgContext x.val) 0x40) 30 = false → Answered x.val seq 0x14 0 s t ∧ t.brCap = w)
      ∧ (bitAt (s.regOf (pgContext x.val) 0x40) 30 = true → Answered x.val seq 0 0 s t
          ∧ field t.brCap 31 16 = (if host = 0 then field w 31 16 else min host 8000)
          ∧ field t.brCap 15 0 = (if ctx = 0 then field w 15 0 else ctx))
      ∧ OnlyPages [pgBridle, pgContext x.val] s t ∧ ChangesOnly [.pages, .host] s t)
  ∧ (∀ (notice : Bool) (s : State), s.boot.sorrelUp = false → exec (.forecastMessage notice) s = .next s)
  ∧ ∀ (notice : Bool) (s : State), s.boot.sorrelUp = true → notice = true ∨ s.bridle.fcPending = true →
    Gives (.forecastMessage notice) s fun t =>
      t.out = s.out ++ [.mctp (s.forecastBytes notice)]
      ∧ t.bridle = { s.bridle with messages := (s.bridle.messages + 1) % 65536 } ∧ ChangesOnly [.out, .bridle] s t
      ∧ ((s.forecastBytes notice).drop 6).take 4
          = [if notice then 2 else 1, 0, BitVec.ofNat 8 s.bridle.messages, BitVec.ofNat 8 (s.bridle.messages / 256)])

/-- A shed begins or ends at a beat boundary: its conditions are kept, and where the level that governs changes, the pace
moves toward the level's pace, the beat is kept, event 2 holds while a shed does, and an entry is counted (R410, R428). -/
def Obligations.ShedsSetThePace : Prop :=
  ∀ (cause : ShedCause) (s : State),
    let u := s.reachBoundary 4096
    (Gives (.shedEntry cause) s fun t =>
      t.bridle.below48 = (s.bridle.below48 || cause != .shedN) ∧ t.bridle.below44 = (s.bridle.below44 || cause == .below44)
      ∧ t.bridle.shedN = (s.bridle.shedN || cause == .shedN)
      ∧ (t.shedLevel ≠ u.shedLevel → t.bridle.shedBeat = u.beat ∧ t.bridle.shed.goal = t.levelPace t.shedLevel
          ∧ t.holdsEvent pgBridle 2 = decide (t.shedLevel ≠ 0)
          ∧ (u.shedLevel < t.shedLevel →
              t.counterOf pgBridle (3 + t.shedLevel) = u.counterOf pgBridle (3 + t.shedLevel) + 1))
      ∧ (t.shedLevel = u.shedLevel → t.pages = u.pages ∧ t.bridle.shed = s.bridle.shed))
    ∧ Gives (.shedEnd cause) s fun t =>
      t.bridle.below48 = (s.bridle.below48 && cause != .below48)
      ∧ t.bridle.below44 = (s.bridle.below44 && cause == .shedN)
      ∧ t.bridle.shedN = (s.bridle.shedN && cause != .shedN)
      ∧ (t.shedLevel ≠ u.shedLevel → t.bridle.shedBeat = u.beat ∧ t.bridle.shed.goal = t.levelPace t.shedLevel
          ∧ t.holdsEvent pgBridle 2 = decide (t.shedLevel ≠ 0))
      ∧ (t.shedLevel = u.shedLevel → t.pages = u.pages ∧ t.bridle.shed = s.bridle.shed)

/-- A quiesce, and a temperature at its critical threshold, stop every cluster of every region at a beat boundary, assert
viral and take the module off the host link (R410, R412, R425). -/
def Obligations.QuiesceStopsTheModule : Prop :=
  ∀ s : State, s.boot.phase ≠ .off → s.boot.phase ≠ .quiesced →
    (∀ c : Instr, (c = .quiesce ∨ ∃ u temp, c = .thermalCritical u temp ∧ (thresholds u).2.2 ≤ temp) →
      Gives c s fun t =>
        t.boot = { s.boot with phase := .quiesced, viral := true, linkUp := false, configReady := false }
        ∧ (∀ r ∈ s.regions, ∀ k ∈ r.2.clusters, (t.cl k).stopped = true) ∧ t.latched pgBridle 6 = true
        ∧ t.now % 4096 = 0 ∧ t.regions = s.regions)
    ∧ ∀ u temp, temp < (thresholds u).2.2 → exec (.thermalCritical u temp) s = .next s

/-- The limiter moves the pace of every RUNNING cluster by 8 a beat down to PACE30, and back up when its cap is no longer exceeded
(R424). A warning
holds event 4; a trip sets thermal pace 16 where the unit paces clusters, and its end lets the pace rise (R425). -/
def Obligations.LimiterAndHeat : Prop :=
  (∀ (peak : Bool) (s : State), s.bridle.limiting = false →
    Gives (.limiterTrip peak) s fun t =>
      t.bridle = { s.bridle with limiting := true } ∧ t.latched pgBridle 3 = true
      ∧ (∀ k, s.runningClusters.count k = 1 →
          let now := (s.cl k).limiter.at s.beat
          t.cl k = { s.cl k with limiter := { start := now, since := s.beat, step := 8, goal := min now (field s.brShed 5 0) } })
      ∧ (∀ k, k ∉ s.runningClusters → t.cl k = s.cl k)
      ∧ t.counterOf pgBridle 6 = s.counterOf pgBridle 6 + 1 ∧ ChangesOnly [.pages, .clusters, .bridle] s t)
  ∧ (∀ s : State, s.bridle.limiting = true →
    Gives .limiterEnd s fun t =>
      t.bridle = { s.bridle with limiting := false } ∧ (∀ k, k ∈ s.runningClusters → (t.cl k).limiter.goal = 64)
      ∧ (∀ k, k ∉ s.runningClusters → t.cl k = s.cl k) ∧ ChangesOnly [.clusters, .bridle] s t)
  ∧ (∀ (u : ThermalUnit) (temp : Int) (s : State),
    Gives (.thermalWarning u temp) s fun t =>
      ((thresholds u).1 ≤ temp → t.bridle.warned.contains (unitNumber u) = true ∧ t.holdsEvent pgBridle 4 = true)
      ∧ (temp < (thresholds u).1 → t.bridle.warned = listErase s.bridle.warned (unitNumber u)
          ∧ t.holdsEvent pgBridle 4 = !t.bridle.warned.isEmpty)
      ∧ ChangesOnly [.pages, .bridle] s t)
  ∧ (∀ (u : ThermalUnit) (temp : Int) (s : State),
    (thresholds u).2.1 ≤ temp → s.bridle.tripped.contains (unitNumber u) = false →
    Gives (.thermalTrip u temp) s fun t =>
      t.bridle.tripped = unitNumber u :: s.bridle.tripped ∧ t.latched pgBridle 5 = true
      ∧ (∀ key, paceKey u = some key → t.now % 4096 = 0 ∧ ∀ b, (SMap.getD t.bridle.thermal key {}).at b = 16)
      ∧ (paceKey u = none → t.bridle.thermal = s.bridle.thermal))
  ∧ ∀ (u : ThermalUnit) (s : State), s.bridle.tripped.contains (unitNumber u) = true →
    Gives (.thermalTripEnd u) s fun t =>
      t.bridle.tripped = listErase s.bridle.tripped (unitNumber u)
      ∧ ∀ key, paceKey u = some key → t.bridle.holdsPace key = false → (SMap.getD t.bridle.thermal key {}).goal = 64

/-- 8,192 beats after the last heartbeat the management plane is stale and event 7 holds; a heartbeat of a management core
ends that (R419). Another requester's is ignored. -/
def Obligations.HeartbeatKeepsFresh : Prop :=
  (∀ s : State, s.bridle.stale = false →
    Gives .mgmtStale s fun t =>
      t.bridle = { s.bridle with stale := true } ∧ t.holdsEvent pgBridle 7 = true
      ∧ t.clock = (s.reachBeat (s.bridle.lastHeartbeat + 8192#48)).clock ∧ ChangesOnly (timeParts ++ [.bridle]) s t)
  ∧ (∀ (req : Req) (s : State), isMgmtReq req = true → s.answers req pgBridle = true →
    Gives (.heartbeat req) s fun t =>
      t.bridle = { s.bridle with stale := false, lastHeartbeat := s.beat } ∧ t.holdsEvent pgBridle 7 = false
      ∧ OnlyPages [pgBridle] s t ∧ ChangesOnly [.pages, .bridle] s t)
  ∧ ∀ (req : Req) (s : State), isMgmtReq req = false → exec (.heartbeat req) s = .next s

/-! ### Regions and sections (spec/08, R371 to R376) -/

/-- RESERVE_REGION, with no other reservation before it, is judged in order (R374, R385, R415): CLUSTER_BUSY, NOT_READY,
NO_REGION; it waits while a named cluster is OFF; otherwise a FREE region becomes its context's. 1,024 whole beats of waiting (R6) end
in NOT_READY. RELEASE_REGION of another's region, or of one that is being cleared, is NOT_OWNER; otherwise the clear
follows, a forced release dropping a candidate that has not started (R374, R376, R391). Two beats later the clusters are
clear and the region is FREE (R191). -/
def Obligations.ReservesAndReleases : Prop :=
  ((∀ (x : Ctx) (seq : W32) (s u : State) (d : Nat), s.startCmd x.val seq 1 = some (d, u) → s.host.reserving = [] →
    Gives (.reserveRegion x seq) s fun t =>
      let ks := dClusters d
      let busy := ks.any fun k => (s.regionOf? k).isSome || (s.cl k).retired || s.retirePending k
      let live := ks.all s.isLive
      let room := (upto 128).any fun r => (s.region r).state == .free
      let dark := ks.any fun k => (s.cl k).power == .off
      (busy = true → Answered x.val seq 0xF 0 s t ∧ t.regions = s.regions)
      ∧ (busy = false → live = false → Answered x.val seq 0x11 0 s t ∧ t.regions = s.regions)
      ∧ (busy = false → live = true → room = false → Answered x.val seq 0x10 0 s t ∧ t.regions = s.regions)
      ∧ (busy = false → live = true → room = true → dark = true →
          t.host.reserving = [(x.val, seq, some s.beat)] ∧ t.regions = s.regions
          ∧ ∀ k ∈ ks, (s.cl k).power = .off → t.holdsEvent (pgClPower k) 1 = true)
      ∧ (busy = false → live = true → room = true → dark = false →
          ∃ r, r < 128 ∧ (s.region r).state = .free ∧ Answered x.val seq 0 (r + ks.length * 65536) s t
            ∧ t.region r = { state := .reserved, owner := x.val, clusters := ks } ∧ ∀ q, q ≠ r → t.region q = s.region q))
  ∧ ∀ (x : Ctx) (seq : W32) (s : State) (b : BitVec 48), s.host.reserving = [(x.val, seq, some b)] →
    ((s.ctx x.val).command seq).isSome = true →
    Gives (.reservePowerTimeout x seq) s fun t =>
      Answered x.val seq 0x11 0 s t ∧ t.host.reserving = [] ∧ t.regions = s.regions
      ∧ t.clock = (s.reachBeat (b + 1025#48)).clock)
  ∧ ((∀ (x : Ctx) (seq : W32) (s u : State) (d : Nat), s.startCmd x.val seq 2 = some (d, u) →
    Gives (.releaseRegion x seq) s fun t =>
      let r := dRegion d
      (s.owns x.val r = false ∨ (s.region r).clearing.isSome = true → Answered x.val seq 2 0 s t ∧ t.regions = s.regions)
      ∧ (s.owns x.val r = true → (s.region r).clearing = none → dForce d = false →
          (t.region r) = { s.region r with clearing := some (x.val, seq, s.beat) } ∧ (t.ctx x.val).waiting = (s.ctx x.val).waiting
          ∧ ∀ q, q ≠ r → t.region q = s.region q)
      ∧ (s.owns x.val r = true → (s.region r).clearing = none → dForce d = true →
          (∃ g, (s.region r).task = some g ∧ g.started = false) → (s.region r).load = none →
          (t.region r) = { s.region r with task := none, clearing := some (x.val, seq, s.beat) }))
  ∧ ∀ (r : Rg) (s : State) (x : Nat) (seq : W32) (b : BitVec 48), (s.region r.val).clearing = some (x, seq, b) →
    (s.region r.val).task = none → (s.region r.val).load = none → s.host.reserving = [] →
    ((s.ctx x).command seq).isSome = true →
    Gives (.releaseClear r) s fun t =>
      t.region r.val = {} ∧ (∀ q, q ≠ r.val → t.region q = s.region q) ∧ Answered x seq 0 0 s t
      ∧ (∀ k ∈ (s.region r.val).clusters, (t.cl k).rows = [] ∧ (t.cl k).rowsFree = none ∧ (t.cl k).gangDesc = []
          ∧ (t.cl k).schedule = [] ∧ (t.cl k).armed = [] ∧ (t.cl k).frozen = false)
      ∧ t.clock = (s.reachBeat (b + 2#48)).clock)

/-- LOAD_SECTION is judged (R201, R374, R487); an accepted load keeps its image, mode, drain time and commit beat, and row
memory of the region's clusters is no longer defined (R214). -/
def Obligations.LoadsAreJudged : Prop :=
  ∀ (x : Ctx) (seq : W32) (s u : State) (d : Nat), s.startCmd x.val seq 3 = some (d, u) →
    let r := dRegion d
    let g := s.region r
    let cb := BitVec.ofNat 48 (field d 207 160)
    let far := cb ≠ 0 ∧ 65536 < (cb - s.beat).toNat ∧ (cb - s.beat).toNat < 2 ^ 47
    let pending := g.clusters.any s.retirePending
    let fits := g.state = .reserved ∨ g.state = .loaded ∨ (dMode d = 1 ∧ g.state = .faulted)
    let refusedWith := fun (n : Nat) (t : State) => Answered x.val seq n ({ status := n } : Ending).imm s t ∧ t.regions = s.regions
    Gives (.loadSection x seq) s fun t =>
      (s.owns x.val r = false → refusedWith 2 t)
      ∧ (s.owns x.val r = true → far → refusedWith 3 t)
      ∧ (s.owns x.val r = true → ¬far → pending = true → refusedWith 0xF t)
      ∧ (s.owns x.val r = true → ¬far → pending = false → ¬fits → refusedWith 1 t)
      ∧ (s.owns x.val r = true → ¬far → pending = false → fits →
          (t.ctx x.val).waiting = (s.ctx x.val).waiting
          ∧ (t.region r).load = some (
              { ctx := x.val, seq := seq, image := dImage d, purge := dMode d == 1,
                drainBeats := if field d 143 128 = 0 then 65536 else field d 143 128,
                commitBeat := cb, accepted := s.beat, before := g.state } : Load)
          ∧ (∀ k ∈ g.clusters, (t.cl k).rows = [] ∧ (t.cl k).rowsFree = some s.freeCount)
          ∧ (∀ q, q ≠ r → t.region q = s.region q))

/-- A load begins to drain at beat A + 2 (R202); its clusters move to the next fold that holds a token (R203); at the first
boundary where the condition of R203 holds, or at once for a purge, every cluster closes (R204); a drain that lasts too long
gives the region back to its earlier state with DRAIN_TIMEOUT (R203). -/
def Obligations.LoadsDrainAndClose : Prop :=
  (∀ (r : Rg) (s : State) (l : Load), (s.region r.val).load = some l → l.started = false →
    Gives (.loadDrainStart r) s fun t =>
      t.clock = (s.reachBeat (l.accepted + 2#48)).clock
      ∧ t.region r.val = { s.region r.val with state := .draining, load := some { l with started := true } }
      ∧ ∀ k ∈ (s.region r.val).clusters, (t.cl k).loadPhase = 1)
  ∧ (∀ (k : Cl) (s : State) (r f : Nat) (g : Region), s.regionOf? k.val = some (r, g) → g.drainLoad.isSome = true →
    let u := s.reachBoundary 4096
    (s.cl k.val).firedBeat ≠ u.beats → (s.cl k.val).bubbleEnd ≤ u.clock → (s.cl k.val).frozen = false →
    firstSome (s.cl k.val).hasTokens ((upto 7).map fun i => ((s.cl k.val).activeFold + 1 + i) % 8) = some f →
    Gives (.drainFoldMove k) s fun t =>
      (t.cl k.val).activeFold = f ∧ (t.cl k.val).bubbleEnd = u.clock + 16 ∧ OnlyClusters [k.val] s t
      ∧ t.counterOf (pgClCtrl k.val) 51 = u.counterOf (pgClCtrl k.val) 51 + 1)
  ∧ (∀ (r : Rg) (s : State) (l : Load), (s.region r.val).load = some l → l.started = true → l.closedAt = none →
    let u := s.reachBoundary 4096
    (l.purge = true ∨ u.isDrained (s.region r.val).clusters = true →
      Gives (.regionClose r) s fun t =>
        t.region r.val = { s.region r.val with load := some { l with closedAt := some u.beat } }
        ∧ ∀ k ∈ (s.region r.val).clusters, (t.cl k).isClosed = true ∧ (t.cl k).loadPhase = 2 ∧ (t.cl k).armed = [])
    ∧ (l.purge = false → u.isDrained (s.region r.val).clusters = false → exec (.regionClose r) s = .next s))
  ∧ ∀ (r : Rg) (s : State) (l : Load), (s.region r.val).drainLoad = some l → ((s.ctx l.ctx).command l.seq).isSome = true →
    let u := s.reachBeat (l.accepted + BitVec.ofNat 48 (2 + l.drainBeats))
    u.isDrained (s.region r.val).clusters = false →
    Gives (.drainTimeout r) s fun t =>
      (t.region r.val).state = l.before ∧ (t.region r.val).load = none ∧ t.counterOf pgRegionMgr 1 = u.counterOf pgRegionMgr 1 + 1
      ∧ (∀ k ∈ (s.region r.val).clusters, (t.cl k).loadPhase = 0 ∧ (t.cl k).isClosed = false)
      ∧ ∃ imm, Answered l.ctx l.seq 5 imm s t

/-- Staging either fails, and the load completes with what failed while the region returns to its state before it, or every
cluster holds its block (R206, R298). The write takes the block's rows and posts REGION_COMMIT for beat Bc in every
cluster's calendar (R207, R208). At its commit beat the section is current (R208): the region is LOADED, the load completes
with success, every core has the words that its block row holds (one without VALID as no word, R106), and each cluster runs fold 0 with a bubble round. -/
def Obligations.SectionsAreWrittenAndCommitted : Prop :=
  ((∀ (r : Rg) (s : State) (l : Load), (s.region r.val).load = some l → l.closedAt.isSome = true → l.staged = false →
    ((s.ctx l.ctx).command l.seq).isSome = true →
    let b := (s.stageSection l.ctx l.image (s.region r.val).clusters).1
    Gives (.sectionStaging r) s fun t =>
      (∀ f, b.fail = some f →
        (t.region r.val).state = l.before ∧ (t.region r.val).load = none ∧ Answered l.ctx l.seq f.ending.status f.ending.imm s t)
      ∧ (b.fail = none →
        (t.region r.val).load = some { l with staged := true } ∧ (t.region r.val).state = (s.region r.val).state
        ∧ ∀ p ∈ b.blocks, (t.cl p.1.k).loadPhase = 3))
  ∧ ∀ (r : Rg) (s : State) (l : Load), (s.region r.val).load = some l → l.staged = true → l.commit = none →
    Gives (.configLoadWrite r) s fun t =>
      let bc := commitAt t.beat l.commitBeat
      t.region r.val = { s.region r.val with load := some { l with commit := some bc } }
      ∧ ∀ k ∈ (s.region r.val).clusters, (t.cl k).loadPhase = 4 ∧ (⟨2, 0, 0, 0, bc⟩ : CalEntry) ∈ t.cal (pgClCtrl k)
          ∧ ∀ m, m < 1026 → SMap.getD (t.cl k).next m {} = (s.cl k).row k m)
  ∧ (∀ (r : Rg) (s : State) (l : Load) (b : BitVec 48), (s.region r.val).load = some l → l.commit = some b →
    s.inOrder b (actionRank 2) = true → (s.region r.val).clusters.Nodup → ((s.ctx l.ctx).command l.seq).isSome = true →
    Gives (.regionCommit r) s fun t =>
      t.region r.val = { s.region r.val with state := .loaded, lastCommit := b, load := none }
      ∧ t.counterOf pgRegionMgr 0 = (s.reachBeat b).counterOf pgRegionMgr 0 + 1 ∧ (∃ imm, Answered l.ctx l.seq 0 imm s t)
      ∧ ∀ k ∈ (s.region r.val).clusters,
          (t.cl k).activeFold = 0 ∧ (t.cl k).initFold = (s.cl k).nextInitFold ∧ (t.cl k).isClosed = false
          ∧ (t.cl k).bubbleEnd = (s.reachBeat b).clock + 16
          ∧ ∀ n f, n < 1024 → f < 8 →
              let w := field ((s.cl k).nextRow (2 + n)) (512 * f + 511) (512 * f)
              (t.core k n).word f = if cwValid w then w else 0)

/-! ### Contexts, rings and records (R360 to R373, R388) -/

/-- A context is enabled only once the control plane is ready and with legal ring sizes; its rings then start empty; a
disable leaves its rings as they are (R361, R362). A doorbell moves its pointer where the ring allows it; another is
refused: counted in counter 2, latched as event 1, and recorded with code 0xA0 or 0xA1, and the pointer stays (R363, R367).
A CQ doorbell with ARM sends the context's vector at once where records wait, and arms otherwise (R368). -/
def Obligations.ContextsAndDoorbells : Prop :=
  (∀ (req : Req) (x : Ctx) (value : W32) (s : State), s.pageOpen req (pgContext x.val) = true →
    let n := pgContext x.val
    let w := (s.plainWrite req n 0x40 (value ||| 0x80000000#32)).regOf n 0x40
    let sizes := 4 ≤ field w 7 4 ∧ field w 7 4 ≤ 12 ∧ 4 ≤ field w 3 0 ∧ field w 3 0 ≤ 12
    (bitAt (s.regOf n 0x40) 31 = false →
      Gives (.contextEnable req x value) s fun t =>
        (s.boot.phase = .released → sizes →
          bitAt (t.regOf n 0x40) 31 = true ∧ t.regOf n 0x80 = 0 ∧ t.regOf n 0x84 = 0 ∧ (t.ctx x.val).sqHead = 0
          ∧ (t.ctx x.val).cqTail = 0 ∧ (t.ctx x.val).phase = true ∧ (t.ctx x.val).seq = 0)
        ∧ (s.boot.phase ≠ .released ∨ ¬sizes → t.host = s.host)
        ∧ (t.ctx x.val).inProgress = (s.ctx x.val).inProgress ∧ ∀ y, y ≠ x.val → t.ctx y = s.ctx y)
    ∧ Gives (.contextDisable req x value) s fun t => bitAt (t.regOf n 0x40) 31 = false ∧ t.host = s.host)
  ∧ ((∀ (req : Req) (x : Ctx) (value : W32) (s : State), s.pageOpen req (pgContext x.val) = true →
    let n := pgContext x.val
    let size := s.sqSize x.val
    let new := value.toNat % 4096
    let tail := s.regOf n 0x80
    let used := (tail + 4096 - (s.ctx x.val).sqHead) % size
    Gives (.sqDoorbell req x value) s fun t =>
      ((new + 4096 - tail) % size ≤ size - 1 - used → t.regOf n 0x80 = new ∧ (t.page n).err = (s.page n).err)
      ∧ (size - 1 - used < (new + 4096 - tail) % size →
          t.regOf n 0x80 = tail ∧ t.counterOf n 2 = s.counterOf n 2 + 1 ∧ t.latched n 1 = true
          ∧ (t.page n).err = ((s.page n).report s.clock 0 0xA0 (req.val * 4096 + new)).err)
      ∧ OnlyPages [n] s t ∧ ChangesOnly [.pages] s t)
  ∧ ∀ (req : Req) (x : Ctx) (value : W32) (s : State), s.pageOpen req (pgContext x.val) = true →
    let n := pgContext x.val
    let size := s.cqSize x.val
    let new := value.toNat % 4096
    let head := s.regOf n 0x84
    let tail := (s.ctx x.val).cqTail
    Gives (.cqDoorbell req x value) s fun t =>
      ((tail + 4096 - head) % size < (new + 4096 - head) % size →
        t.regOf n 0x84 = head ∧ (t.page n).err = ((s.page n).report s.clock 0 0xA1 (req.val * 4096 + new)).err
        ∧ t.counterOf n 2 = s.counterOf n 2 + 1 ∧ t.host = s.host ∧ t.out = s.out)
      ∧ ((new + 4096 - head) % size ≤ (tail + 4096 - head) % size →
          t.regOf n 0x84 = new
          ∧ (bitAt value.toNat 31 = true → tail = new → (t.ctx x.val).armed = true ∧ t.out = s.out)
          ∧ (bitAt value.toNat 31 = true → tail ≠ new → (t.ctx x.val).armed = false
              ∧ (s.host.masked.contains x.val = false → t.out = s.out ++ [.msix x.val]))
          ∧ (bitAt value.toNat 31 = false → (t.ctx x.val).armed = (s.ctx x.val).armed ∧ t.out = s.out))
      ∧ OnlyPages [n] s t ∧ ChangesOnly [.pages, .host, .out] s t)

/-- A descriptor is fetched while the context is enabled, its ring is not empty and fewer than 16 commands are in progress;
one that R370 refuses completes with BAD_COMMAND (R364, R370). The oldest record goes to its slot of a ring that is not
full, with its phase and SQ head, and to no other byte of host memory; an armed ring sends its vector (R366, R368). -/
def Obligations.RingsAreServed : Prop :=
  (∀ (x : Ctx) (s : State),
    let n := pgContext x.val
    let c := s.ctx x.val
    bitAt (s.regOf n 0x40) 31 = true → c.sqHead ≠ s.regOf n 0x80 % s.sqSize x.val → c.inProgress.length < 16 →
    let d := ofBytes (memReadList s.host.bytes (s.ctxBase x.val 0x48 + 128 * c.sqHead) 128)
    Gives (.descriptorFetch x) s fun t =>
      (t.ctx x.val).sqHead = (c.sqHead + 1) % s.sqSize x.val ∧ (t.ctx x.val).seq = c.seq + 1
      ∧ t.counterOf n 0 = s.counterOf n 0 + 1 ∧ t.counterOf n 14 = s.counterOf n 14 + 128
      ∧ (descBad d = false →
          (t.ctx x.val).inProgress
              = c.inProgress ++ [{ seq := c.seq, desc := BitVec.ofNat 1024 d, place := c.freePlace }]
          ∧ (t.ctx x.val).waiting = c.waiting)
      ∧ (descBad d = true → (t.ctx x.val).inProgress.length = c.inProgress.length
          ∧ ∃ w, (t.ctx x.val).waiting = c.waiting ++ [w] ∧ field w.toNat 63 56 = 3)
      ∧ (∀ y, y ≠ x.val → t.ctx y = s.ctx y) ∧ OnlyPages [n] s t ∧ ChangesOnly [.pages, .host, .moved] s t)
  ∧ (∀ (x : Ctx) (s : State) (w : BitVec 256) (rest : List (BitVec 256)),
    (s.ctx x.val).waiting = w :: rest → s.cqFull x.val = false → MemoryInv s →
    let c := s.ctx x.val
    let slot := s.ctxBase x.val 0x50 + 32 * c.cqTail
    let tail := (c.cqTail + 1) % s.cqSize x.val
    Gives (.completionWrite x) s fun t =>
      (∀ a, a < slot ∨ slot + 32 ≤ a → memRead t.host.bytes a = memRead s.host.bytes a)
      ∧ (c.sqHead < 4096 → field w.toNat 55 0 = 0 →
          memRead t.host.bytes slot = BitVec.ofNat 8 (ofBool c.phase)
          ∧ memRead t.host.bytes (slot + 4) = BitVec.ofNat 8 c.sqHead
          ∧ ∀ i, 7 ≤ i → i < 32 → memRead t.host.bytes (slot + i) = BitVec.ofNat 8 (w.toNat / 2 ^ (8 * i)))
      ∧ (t.ctx x.val).waiting = rest ∧ (t.ctx x.val).cqTail = tail ∧ (t.ctx x.val).armed = false
      ∧ (t.ctx x.val).phase = (if tail = 0 then !c.phase else c.phase)
      ∧ t.counterOf (pgContext x.val) 1 = s.counterOf (pgContext x.val) 1 + 1 ∧ t.latched (pgContext x.val) 3 = true
      ∧ (c.armed = true → s.host.masked.contains x.val = false → t.out = s.out ++ [.msix x.val])
      ∧ (c.armed = false → t.out = s.out) ∧ ChangesOnly [.pages, .host, .out, .moved] s t)

/-- What the other commands of a context's host do: an unmasked vector that was pending is sent (R368); cached translations
are dropped (R360); bias changes are taken (R358); a context moves to the other die's core when its own is stale or held in
reset (R388); a wake record is popped and its core's credit returned (R343). A CXL.mem write of an active range puts its 64
bytes at their place and changes no other byte; a read returns them, or zeros with poison where the range is not active or
the chunk is not available (R357, R493). -/
def Obligations.HostSideCommands : Prop :=
  ((∀ (v : Fin 65) (s : State),
    Gives (.msixUnmask v) s fun t =>
      t.host.masked = listErase s.host.masked v.val
      ∧ (s.host.msixPending.contains v.val = true →
          t.out = s.out ++ [.msix v.val] ∧ t.host.msixPending = listErase s.host.msixPending v.val)
      ∧ (s.host.msixPending.contains v.val = false → t.out = s.out) ∧ ChangesOnly [.out, .host] s t)
  ∧ (∀ (req : Req) (x : Ctx) (s : State), s.pageOpen req (pgContext x.val) = true →
    Gives (.xltInval req x) s fun t =>
      t.host = { s.host with xlt := s.host.xlt.filter fun e => e.1 != x.val } ∧ ChangesOnly [.host] s t)
  ∧ (∀ (req : Req) (value : W32) (s : State), s.pageOpen req pgCxl = true → s.regOf pgCxl 0x40 < 966656 →
    Gives (.biasChange req value) s fun t =>
      (bitAt value.toNat 0 = true → t.host.deviceBias.contains (s.regOf pgCxl 0x40) = true
        ∧ t.host.biasChange = s.host.biasChange)
      ∧ (bitAt value.toNat 0 = false → t.host.deviceBias = listErase s.host.deviceBias (s.regOf pgCxl 0x40)
          ∧ (s.host.deviceBias.contains (s.regOf pgCxl 0x40) = true →
              t.host.biasChange = some (s.regOf pgCxl 0x40, s.clock)))
      ∧ ChangesOnly [.host] s t)
  ∧ (∀ (req : Req) (value : W32) (s : State), 966656 ≤ s.regOf pgCxl 0x40 → exec (.biasChange req value) s = .next s)
  ∧ (∀ (x : Ctx) (s : State), (s.page (pgDispatch (x.val % 16))).inReset = true → (s.ctx x.val).moved = false →
    Gives (.contextMove x) s fun t => t.serving x.val = (x.val + 8) % 16 ∧ ChangesOnly [.host] s t
      ∧ ∀ y, y ≠ x.val → t.ctx y = s.ctx y)
  ∧ ∀ (req : Req) (d : Fin 16) (s : State) (r : WakeRecord) (rest : List WakeRecord),
    s.answers req (pgDispatch d.val) = true → (s.wakeQueue d.val).records = r :: rest →
    Gives (.wakePop req d) s fun t =>
      t.out = s.out ++ [.readValue req.val (BitVec.ofNat 64 (r.value.toNat % 2 ^ 32))]
      ∧ (t.wakeQueue d.val).records = rest)
  ∧ (∀ (range : Fin 2) (off : BitVec 40) (s : State) (st : Nat),
    let a := (if range.val = 0 then 0x10000000000 else 0x20000000000) + off.toNat / 64 * 64
    storeAddr a = some st → MemoryInv s →
    (∀ bs : List Byte, bs.length = 64 →
      Gives (.cxlMemRequest range off (some bs)) s fun t =>
        (s.rangeActive range.val = true → s.hostUnavailable a = false →
          (∀ i, i < 64 → some (t.memByte (st + i)) = bs[i]?)
          ∧ ∀ b, b < st ∨ st + 64 ≤ b → t.memByte b = s.memByte b)
        ∧ (s.rangeActive range.val = false ∨ s.hostUnavailable a = true → t.mem = s.mem)
        ∧ (s.rangeActive range.val = false → t.counterOf pgCxl 4 = s.counterOf pgCxl 4 + 1)
        ∧ ChangesOnly [.pages, .mem] s t)
    ∧ Gives (.cxlMemRequest range off none) s fun t =>
      (∀ b, t.memByte b = s.memByte b)
      ∧ (s.rangeActive range.val = true → s.hostUnavailable a = false →
          t.out = s.out ++ [.cxlData ((upto 64).map fun i => s.memByte (st + i))
            (s.mem.poisoned (st / 32) || s.mem.poisoned (st / 32 + 1))])
      ∧ (s.rangeActive range.val = false ∨ s.hostUnavailable a = true →
          t.out = s.out ++ [.cxlData (List.replicate 64 0) true])
      ∧ ChangesOnly [.out, .pages, .mem] s t)

/-- FENCE completes once it may start (R371); QUERY answers what it asks of an owned region, or of none (R381). Over memory that its
context may use, COPY leaves the source's bytes, and FILL its pattern, in the destination, complete with success and leave every other
byte alone; without the right to their first byte they complete with MEMORY_FAULT and change no byte (R380). SAVE_CONTEXT writes the
context's image, where it fits and its context may write there, and completes with the image's length; with too little space, or no
right to the first byte, it completes with NO_SPACE or MEMORY_FAULT and writes nothing (R382). RESTORE_CONTEXT of an image that can
be read and agrees with the context's regions and VIDs completes with success, each cluster's handle entries from the image and its
arrival counters and rings zero; an image of another magic word completes with IMAGE_MISMATCH (R383). -/
def Obligations.TransfersQueriesAndImages : Prop :=
  (((∀ (x : Ctx) (seq : W32) (s u : State) (d : Nat), s.startCmd x.val seq 5 = some (d, u) →
    Gives (.fence x seq) s fun t => Answered x.val seq 0 0 s t ∧ ChangesOnly [.pages, .host] s t)
  ∧ ∀ (x : Ctx) (seq : W32) (s u : State) (d : Nat), s.startCmd x.val seq 11 = some (d, u) →
    Gives (.query x seq) s fun t =>
      let r := dRegion d
      let what := field d 67 64
      let foreign := (r ≠ 255 ∨ what = 0) ∧ s.owns x.val r = false
      (foreign → Answered x.val seq 2 0 s t)
      ∧ (¬foreign → what = 0 →
          Answered x.val seq 0 ((s.region r).entry + (s.region r).lastCommit.toNat * 2 ^ 32) s t)
      ∧ (¬foreign → what = 1 → Answered x.val seq 0 s.moduleStatus s t)
      ∧ (¬foreign → what = 2 → Answered x.val seq 0 (s.now + ofBool s.mt.unsync * 2 ^ 64) s t)
      ∧ (¬foreign → what = 3 →
          Answered x.val seq 0 ((s.counterOf (pgContext x.val) 8).toNat + (s.counterOf (pgContext x.val) 5).toNat * 2 ^ 64) s t)
      ∧ ChangesOnly [.pages, .host] s t)
  ∧ ((∀ (x : Ctx) (seq : W32) (s u : State) (d : Nat), s.startCmd x.val seq 9 = some (d, u) →
    dLen d % 32 = 0 → dImage d % 32 = 0 → dDst d % 32 = 0 → copyOverlaps d = false → MemoryInv s →
    s.mayAccess x.val (dImage d) (dLen d) false = true → s.mayAccess x.val (dDst d) (dLen d) true = true →
    Gives (.copy x seq) s fun t =>
      Answered x.val seq 0 0 s t ∧ (∀ i, i < dLen d → t.memByte (dDst d + i) = s.memByte (dImage d + i))
      ∧ ∀ b, b < dDst d ∨ dDst d + dLen d ≤ b → t.memByte b = s.memByte b)
  ∧ (∀ (x : Ctx) (seq : W32) (s u : State) (d pkg loc : Nat), s.startCmd x.val seq 9 = some (d, u) →
    0 < dLen d → dImage d % 32 = 0 → placeOf (dImage d) = .lpddr pkg loc → s.memStatus x.val (dImage d) false ≠ 0 →
    Gives (.copy x seq) s fun t =>
      Answered x.val seq 8 ({ status := 8, value := dImage d, code := s.memStatus x.val (dImage d) false } : Ending).imm s t
      ∧ t.mem = s.mem)
  ∧ (∀ (x : Ctx) (seq : W32) (s u : State) (d : Nat), s.startCmd x.val seq 10 = some (d, u) →
    dLen d % 32 = 0 → dDst d % 32 = 0 → MemoryInv s → s.mayAccess x.val (dDst d) (dLen d) true = true →
    Gives (.fill x seq) s fun t =>
      Answered x.val seq 0 0 s t
      ∧ (∀ i, i < dLen d → t.memByte (dDst d + i) = BitVec.ofNat 8 (field d 319 256 / 2 ^ (8 * (i % 8))))
      ∧ ∀ b, b < dDst d ∨ dDst d + dLen d ≤ b → t.memByte b = s.memByte b)
  ∧ ∀ (x : Ctx) (seq : W32) (s u : State) (d pkg loc : Nat), s.startCmd x.val seq 10 = some (d, u) →
    0 < dLen d → dDst d % 32 = 0 → placeOf (dDst d) = .lpddr pkg loc → s.memStatus x.val (dDst d) true ≠ 0 →
    Gives (.fill x seq) s fun t =>
      Answered x.val seq 8 ({ status := 8, value := dDst d, code := s.memStatus x.val (dDst d) true } : Ending).imm s t
      ∧ t.mem = s.mem))
  ∧ ((∀ (x : Ctx) (seq : W32) (s u : State) (d : Nat), s.startCmd x.val seq 12 = some (d, u) → MemoryInv s →
    let image := s.saveImage x.val
    (image.length ≤ field d 159 128 → s.mayAccess x.val (dImage d) image.length true = true →
      Gives (.saveContext x seq) s fun t =>
        Answered x.val seq 0 image.length s t ∧ t.memBytes (dImage d) image.length = image
        ∧ ∀ b, b < dImage d ∨ dImage d + image.length ≤ b → t.memByte b = s.memByte b)
    ∧ (field d 159 128 < image.length →
      Gives (.saveContext x seq) s fun t => Answered x.val seq 0x15 image.length s t ∧ t.mem = s.mem)
    ∧ ∀ pkg loc, image.length ≤ field d 159 128 → placeOf (dImage d / 32 * 32) = .lpddr pkg loc →
      s.memStatus x.val (dImage d / 32 * 32) true ≠ 0 →
      Gives (.saveContext x seq) s fun t => Answered x.val seq 8 0 s t ∧ t.mem = s.mem)
  ∧ ∀ (x : Ctx) (seq : W32) (s u : State) (d : Nat), s.startCmd x.val seq 13 = some (d, u) →
    let rs := s.ownedRegions x.val
    let ns := rs.map fun r => r.2.clusters.length
    let offs := recordOffsets 64 ns
    let ring := offs.getLast?.getD 64
    let bs := s.memBytes (dImage d) (ring + 80)
    let h := imageWord bs 0 64
    let c := imageWord bs (ring + 64) 16
    let nb := field c 40 32
    let nw := field c 54 41
    let size := ring + 80 + (136 * nb + 32 * nw)
    s.mayAccess x.val (dImage d) size false = true →
    (∀ i, i < size → s.mem.poisoned ((dImage d + i) / 32) = false) →
    (field h 31 0 = 0x43545853 → field h 39 32 = 1 → field h 53 46 = rs.length → regionsAgree bs ns = true →
      field c 31 0 = 0x434E4348 → nb ≤ 256 → nw ≤ 8192 →
      (∀ b ∈ savedBlocks (s.memBytes (dImage d + (ring + 80)) (136 * nb)) 0 nb, (s.mappedBlocks x.val).contains b.vid = true) →
      (rs.flatMap fun r => r.2.clusters).Nodup →
      Gives (.restoreContext x seq) s fun t =>
        Answered x.val seq 0 0 s t
        ∧ ∀ p ∈ rs.zip offs, ∀ k ∈ p.1.2.clusters.zipIdx, (t.cl k.1).arrivals = [] ∧ (t.cl k.1).rings = []
          ∧ ∀ n, n < 64 → (t.cl k.1).handle n = restoreHandle bs (p.2 + 64 + 1024 * k.2 + 16 * n) ((s.cl k.1).handle n))
    ∧ (field h 31 0 ≠ 0x43545853 →
      Gives (.restoreContext x seq) s fun t =>
        Answered x.val seq 0x16 0 s t ∧ t.clusters = s.clusters ∧ t.cinch = s.cinch))

/-- The host's cinch commands send their packet to the VID's unit and stay in progress (R343, R379); a CINCH_WAIT whose time
is over sends CINCH_CANCEL, once. -/
def Obligations.CinchCommandsSendTheirPacket : Prop :=
  (∀ (c : Instr) (x : Ctx) (seq : W32) (op : Nat) (s u : State) (d : Nat),
    (c = .cmdCinchSet x seq ∧ op = 6) ∨ (c = .cmdCinchAdd x seq ∧ op = 7) ∨ (c = .cinchWait x seq ∧ op = 8) →
    s.startCmd x.val seq op = some (d, u) →
    Gives c s fun t =>
      ∃ p, p.opcode.toNat = (if op = 6 then 0x39 else if op = 7 then 0x38 else 0x3B) ∧ p.ctx.toNat = x.val
        ∧ p.src = epDispatch (s.serving x.val) ∧ p.dest = epCinch (unitOf (dVid d)) ∧ cpVid (cpWord p) = dVid d
        ∧ cpOperand (cpWord p) = field d 191 128
        ∧ (t.router (entryOf p).1).held.length = (s.router (entryOf p).1).held.length + 1
        ∧ Injected p t ∧ (t.ctx x.val).waiting = (s.ctx x.val).waiting ∧ ChangesOnly [.host, .mesh] s t)
  ∧ ∀ (x : Ctx) (seq : W32) (s : State) (c : Command), (s.ctx x.val).command seq = some c → c.started = true →
    dOp c.desc.toNat = 8 → dWaitBeats c.desc.toNat ≠ 0 → c.cancel = 0 →
    Gives (.cinchWaitTimeout x seq) s fun t =>
      t.clock = (s.reachBeat (c.start + BitVec.ofNat 48 (dWaitBeats c.desc.toNat))).clock
      ∧ ∃ p, p.opcode = 0x3C#8 ∧ cpVid (cpWord p) = dVid c.desc.toNat ∧ Injected p t

/-! ### Engines of a core (spec/04, spec/05) -/

/-- A DPE that fires adds the dot product of its operands to the accumulator that its counters choose, with their poison
(R77, R100, R122), and no other cluster changes. -/
def Obligations.DpeAccumulates : Prop :=
  ∀ (id : CoreId) (s : State) (x : Firing),
    let k := id.k.val
    let n := coreNum id
    let v := opportunityOf id 0 s
    let f := (v.cl k).activeFold
    let c := v.core k n
    let w := c.word f
    let z := c.asOf v.clock
    v.roundOpen k = true → c.ready f v.clock = true → dpeAttempt k v c f w v.clock = .fired x →
    Gives (.dpeFire id) s fun t =>
      SMap.getD (t.core k n).nextFire 0 0 = x.next ∧ (t.core k n).firedBeat = v.beats + 1 ∧ (t.cl k).activeBeat = v.beats + 1
      ∧ OnlyClusters [k] v t ∧ t.clock = v.clock
      ∧ ∀ a b, z.readSrc f w v.clock (cwDpeA w) ((pairingInfo (cwPairing w) (ofBool (bitAt w 119)) (ofBool (bitAt w 118))).any fun p => p.2.2.2.1 == 32) .data = some a →
          z.readSrc f w v.clock (cwDpeB w) true .data = some b → cwEmit w = 0 →
          (t.core k n).accum (z.accIndex w)
            = ⟨BitVec.ofNat 32 (dot (cwPairing w) (ofBool (bitAt w 119)) (ofBool (bitAt w 118)) a.bits b.bits
                (c.accum (z.accIndex w)).bits.toNat (cwIntSat w)).acc,
               (c.accum (z.accIndex w)).poison || (a.poison || b.poison)⟩

/-- A lane engine, and a control engine's STEER, MERGE and FORWARD, that fire send their token to its destination: into a
queue by loopback it lands 4 cycles later from the lane engine and 1 cycle later from the control engine (R90, R96, R127);
STEER chooses its destination by the control token's PRED bit (R96, R98). -/
def Obligations.EnginesSendTheirToken : Prop :=
  (∀ (id : CoreId) (s : State) (x : Firing),
    let k := id.k.val
    let n := coreNum id
    let v := opportunityOf id 1 s
    let f := (v.cl k).activeFold
    let c := v.core k n
    let w := c.word f
    v.roundOpen k = true → c.ready f v.clock = true → leAttempt k v c f w v.clock = .fired x →
    Gives (.leFire id) s fun t =>
      SMap.getD (t.core k n).nextFire 1 0 = x.next ∧ (t.core k n).firedBeat = v.beats + 1 ∧ OnlyClusters [k] v t
      ∧ (dCode (cwLeDest w) = 4 → cwCtEmit w = 0 → cwHalf w = true →
          ∃ tok : Token, (t.core k n).landing = c.landing ++ [⟨v.clock + 4, .queue (dQueue (cwLeDest w)), tok, v.clock⟩]
            ∧ tok.fold.toNat = dFold (cwLeDest w) ∧ tok.ctrl = false))
  ∧ ∀ (id : CoreId) (i : Instr) (op : Nat) (s : State) (x : Firing) (r : CeReads),
    (i = .steer id ∧ op = 1) ∨ (i = .merge id ∧ op = 2) ∨ (i = .forward id ∧ op = 3) →
    let k := id.k.val
    let n := coreNum id
    let v := opportunityOf id 2 s
    let f := (v.cl k).activeFold
    let c := v.core k n
    let w := c.word f
    v.roundOpen k = true → c.ready f v.clock = true → ceAttempt op k v c f w v.clock = .fired x → ceReads (c.asOf v.clock) f w v.clock = some r →
    c.firedIn 1 v.clock = false →
    Gives i s fun t =>
      SMap.getD (t.core k n).nextFire 2 0 = v.clock + 1 ∧ (t.core k n).firedBeat = v.beats + 1 ∧ OnlyClusters [k] v t
      ∧ (dCode r.dest = 4 → cwCtEmit w = 0 →
          ∃ tok : Token, (t.core k n).landing = c.landing ++ [⟨v.clock + 1, .queue (dQueue r.dest), tok, v.clock⟩]
            ∧ tok.payload = BitVec.ofNat 128 r.data.bits ∧ tok.fold.toNat = dFold r.dest)
      ∧ (op = 1 → ∃ ctl, (c.asOf v.clock).readSrc f w v.clock (cwCtSrc w) false .ctrl = some ctl
          ∧ r.dest = if ctl.heads.head?.any (fun h => tokenPred h.2 (cwPredSel w)) then cwDestT w else cwDestF w)

/-- What is in flight in a core lands in its cycle: in an entry of the core store with its poison, in a launch buffer, or in
a queue with room for it, behind what the queue holds but for the arrivals of that cycle that come after it in the order slot
fabric, DPE, LE, CE (R79, R90, R101, R167). A stray token is dropped and is a core exception of kind 1 (R97, R105). -/
def Obligations.TokensLandAndStraysDrop : Prop :=
  (∀ (id : CoreId) (i : Instr) (s : State) (ls : List Landing) (j r : Nat) (l : Landing),
    let k := id.k.val
    let n := coreNum id
    (i = .dpeEmission id ∧ ls = (s.core k n).emissions ∧ r = 1) ∨ (i = .tokenArrival id ∧ ls = (s.core k n).landing ∧ r = l.rank) →
    earliest ls = some (j, l) →
    Gives i s fun t =>
      t.clock = max s.clock l.due
      ∧ (i = .dpeEmission id → (t.core k n).emissions = listDrop ls j) ∧ (i = .tokenArrival id → (t.core k n).landing = listDrop ls j)
      ∧ (∀ e, l.target = .store e → SMap.getD (t.core k n).store e {} = ⟨l.tok.payload, l.tok.poison⟩)
      ∧ (∀ p slot route, l.target = .port p slot route →
          SMap.getD (t.core k n).launch p [] = SMap.getD (s.core k n).launch p [] ++ [⟨l.tok, slot, route, l.due⟩])
      ∧ (∀ q, l.target = .queue q →
          let f := l.tok.fold.toNat
          let c := (s.core k n).settleSlack t.clock
          let w := c.word f
          cwValid w = true → SMap.get? c.closed (pairKey q f) = none → c.hasPath q f = false → c.held q f < cwCred w q →
          (t.core k n).queue q = withArrival (c.queue q) ⟨l.tok, t.clock, r⟩))
  ∧ ∀ (id : CoreId) (e : Engine) (s : State) (q : Nat),
    let k := id.k.val
    let n := coreNum id
    let f := (s.cl k).activeFold
    let c := (s.core k n).settleSlack s.clock
    s.roundOpen k = true → c.ready f s.clock = true → c.strayQueue e f (c.word f) s.clock = some q →
    Gives (.strayToken id e) s fun t =>
      t.counterOf (pgClCtrl k) 32 = s.counterOf (pgClCtrl k) 32 + 1 ∧ t.latched (pgClCtrl k) 12 = true
      ∧ (c.hasPath q f = false → (t.core k n).queue q = dropFold f (c.queue q)) ∧ OnlyClusters [k] s t
      ∧ OnlyPages [pgClCtrl k] s t ∧ ChangesOnly [.pages, .clusters] s t

/-! ### The slot fabric (spec/07) -/

/-- A launch buffer's oldest token leaves in the first cycle of its route and costs a credit, unless engines may not fire
then (R167). A token between cores of one cluster, on a route that ends in the local queue, lands there in its cycle (R79,
R166); one from another context's cluster is an unrouted arrival (R178, R190). -/
def Obligations.LaunchesAndHops : Prop :=
  (∀ (id : CoreId) (p : Fin 4) (s : State) (e : LaunchEntry) (rest : List LaunchEntry),
    let k := id.k.val
    let n := coreNum id
    SMap.getD (s.core k n).launch p.val [] = e :: rest →
    let v := s.reachClock (max e.entered (SMap.getD (s.core k n).nextLaunch p.val 0))
    let w := (s.core k n).word e.slot
    let u := v.advance (phaseWait w e.route v.now)
    Gives (.portLaunch id p) s fun t =>
      t.clock = u.clock ∧ SMap.getD (t.core k n).nextLaunch p.val 0 = u.clock + 1
      ∧ (u.portOpen k = true → u.quiet k = false →
          SMap.getD (t.core k n).launch p.val [] = rest
          ∧ (SMap.getD (t.core k n).credit (4 * e.slot + e.route) {}).count
              = (SMap.getD (s.core k n).credit (4 * e.slot + e.route) {}).count - 1)
      ∧ (u.portOpen k = false ∨ u.quiet k = true →
          SMap.getD (t.core k n).launch p.val [] = e :: rest ∧ t.flights = s.flights)
      ∧ OnlyClusters [k] u t)
  ∧ (∀ (id : CoreId) (d : Dir) (s : State) (x : Flight),
    let k := id.k.val
    let n := coreNum id
    nextFlight s.flights (1024 * k + n) d = some x →
    let u := s.reachClock x.due
    let f := x.tok.fold.toNat
    Gives (.tokenHop id d) s fun t =>
      t.clock = u.clock
      ∧ (∀ r, u.acrossCluster k n d = some k → (s.cl k).lacing.active = [] → cwValid ((s.core k n).word f) = true →
          routeFor ((s.core k n).word f) (dirNum d) u.phase = some r → rtLocal ((s.core k n).word f) r = true →
          (upto 4).all (fun m => !rtDrives ((s.core k n).word f) r m) = true →
          (⟨u.clock, .queue (cwLocalQ ((s.core k n).word f) r), x.tok, u.clock⟩ : Landing) ∈ (t.core k n).landing
          ∧ t.flights = listErase s.flights x)
      ∧ (∀ l, u.acrossCluster k n d = some l → s.sameOwner k l = false →
          t.counterOf (pgClCtrl k) 47 = u.counterOf (pgClCtrl k) 47 + 1 ∧ t.latched (pgClCtrl k) 17 = true
          ∧ t.flights = listErase s.flights x))

/-- A pending credit of an active fold goes back once its fold's bubble round is over: to the core's own credit counter where the
route that feeds its share begins there, else onto the credit lane of the route's input link, which carries it in one cycle and 16
for each added round (R165, R170, R171). A credit at the end of its lane goes on to the counter of the route that drives the link
(R171, R172). A slack path of 30 written tokens asks for a row of its ring and makes 30 credits pending, and the row fills once
granted; an empty read latch asks for the oldest row, and takes it once read (R180 to R182). -/
def Obligations.CreditsAndSlackRowsMove : Prop :=
  (∀ (id : CoreId) (q f : Fin 8) (s : State) (r : Nat),
    let k := id.k.val
    let n := coreNum id
    let c := s.core k n
    let w := c.word f.val
    let p := SMap.getD c.pendCredit (pairKey q.val f.val) {}
    let u := s.reachClock (max p.ready (s.cl k).bubbleEnd)
    routeFeeding w q.val = some r → 4 ≤ rtIn w r → (s.branches k n f.val r).length ≤ 1 →
    p.count ≠ 0 → (s.cl k).activeFold = f.val → (SMap.getD c.credit (4 * f.val + r) {}).last ≠ u.clock + 1 →
    Gives (.creditReturn (.share id q f)) s fun t =>
      t.clock = u.clock ∧ SMap.getD (t.core k n).pendCredit (pairKey q.val f.val) {} = ⟨p.count - 1, u.clock + 1⟩
      ∧ (SMap.getD (t.core k n).credit (4 * f.val + r) {}).count = ((SMap.getD c.credit (4 * f.val + r) {}).count + 1) % 256
      ∧ OnlyClusters [k] s t ∧ ChangesOnly (timeParts ++ [.clusters]) s t)
  ∧ (∀ (id : CoreId) (q f : Fin 8) (s : State) (r : Nat) (e : FarEnd),
    let k := id.k.val
    let n := coreNum id
    let c := s.core k n
    let w := c.word f.val
    let p := SMap.getD c.pendCredit (pairKey q.val f.val) {}
    let u := s.reachClock (max p.ready (s.cl k).bubbleEnd)
    let v := u.advance (creditWait (rtCredits w r) u.now)
    let d := dirOf (rtIn w r)
    routeFeeding w q.val = some r → rtIn w r < 4 → (v.branches k n f.val r).length ≤ 1 → rtCredits w r v.phase = true →
    p.count ≠ 0 → (s.cl k).activeFold = f.val → s.lanes = [] → v.heldBack k n d = false → v.farEnd k n d = some e →
    Gives (.creditReturn (.share id q f)) s fun t =>
      t.clock = v.clock ∧ SMap.getD (t.core k n).pendCredit (pairKey q.val f.val) {} = ⟨p.count - 1, v.clock + 1⟩
      ∧ t.lanes = [⟨e.dest, e.dir, f.val, 15 - v.phase, v.clock + 1 + 16 * e.rounds⟩] ∧ OnlyClusters [k] s t)
  ∧ (∀ (id : CoreId) (d : Dir) (f : Fin 8) (s : State) (x : LaneCredit) (r : Nat),
    let k := id.k.val
    let n := coreNum id
    let c := s.core k n
    let w := c.word f.val
    let u := s.reachClock x.due
    nextCredit s.lanes (1024 * k + n) (some d) f.val = some x → u.acrossCluster k n d = some k → (s.cl k).lacing.active = [] →
    firstSome (fun r => rtValid w r && rtDrives w r (dirNum d) && rtHolds w r x.phase) (upto 4) = some r →
    4 ≤ rtIn w r → s.branches k n f.val r = [dirNum d] → (SMap.getD c.credit (4 * f.val + r) {}).last ≠ u.clock + 1 →
    Gives (.creditReturn (.lane id d f)) s fun t =>
      t.clock = u.clock ∧ t.lanes = listErase s.lanes x
      ∧ (SMap.getD (t.core k n).credit (4 * f.val + r) {}).count = ((SMap.getD c.credit (4 * f.val + r) {}).count + 1) % 256
      ∧ OnlyClusters [k] s t)
  ∧ (∀ (id : CoreId) (f : Fin 8) (s : State),
    let k := id.k.val
    let n := coreNum id
    let w := (s.core k n).word f.val
    let p := (s.core k n).path f.val
    let h := (s.cl k).handle (cwSlackHandle w)
    let row := h.baseRow + (p.head + p.used) % h.length
    cwSlackEn w = true →
    (p.writing = none → 30 ≤ p.write.length → p.used < h.length → (s.cl k).frozen = false →
      Gives (.slackRowWrite id f) s fun t =>
        (t.core k n).path f.val = { p with writing := some ((t.cl k).arb.ticket 11) }
        ∧ (SMap.getD (t.core k n).pendCredit (pairKey (cwSlackQ w) f.val) {}).count
            = (SMap.getD (s.core k n).pendCredit (pairKey (cwSlackQ w) f.val) {}).count + 30
        ∧ (∀ m, (t.cl k).row k m = (s.cl k).row k m) ∧ OnlyClusters [k] s t ∧ ChangesOnly [.clusters] s t)
    ∧ ∀ b m, p.writing = some b → ((s.settleArb k).cl k).arb.movedAt 11 b = some m →
      Gives (.slackRowWrite id f) s fun t =>
        (t.core k n).path f.val = { p with write := p.write.drop 30, used := p.used + 1, writing := none, next := max p.next t.clock }
        ∧ (∀ m, (t.cl k).row k m = if m = row then slackRow p.write else (s.cl k).row k m)
        ∧ t.counterOf (pgClCtrl k) 49 = (s.settleArb k).counterOf (pgClCtrl k) 49 + 1
        ∧ OnlyClusters [k] s t ∧ ChangesOnly [.pages, .clusters] s t)
  ∧ ∀ (id : CoreId) (f : Fin 8) (s : State),
    let k := id.k.val
    let n := coreNum id
    let w := (s.core k n).word f.val
    let p := (s.core k n).path f.val
    let h := (s.cl k).handle (cwSlackHandle w)
    cwSlackEn w = true →
    (p.reading = none → p.read = [] → p.used ≠ 0 → h.length ≠ 0 → (s.cl k).frozen = false →
      Gives (.slackRowRead id f) s fun t =>
        (t.core k n).path f.val = { p with reading := some ((t.cl k).arb.ticket 11) }
        ∧ (∀ m, (t.cl k).row k m = (s.cl k).row k m) ∧ OnlyClusters [k] s t ∧ ChangesOnly [.clusters] s t)
    ∧ ∀ b m, p.reading = some b → ((s.settleArb k).cl k).arb.movedAt 11 b = some m →
      Gives (.slackRowRead id f) s fun t =>
        ((t.core k n).path f.val).head = (p.head + 1) % h.length ∧ ((t.core k n).path f.val).used = p.used - 1
        ∧ ((t.core k n).path f.val).write = p.write ∧ ((t.core k n).path f.val).reading = none
        ∧ m + 4 ≤ t.clock ∧ (∀ m, (t.cl k).row k m = (s.cl k).row k m)
        ∧ OnlyClusters [k] s t ∧ ChangesOnly (timeParts ++ [.clusters]) s t

/-- A RUNNING region that has been idle for 64 beats with a full share freezes: every cluster is frozen, event 16 latches in
the first cluster that holds a full share, and the region is FAULTED (R184 to R186). -/
def Obligations.IdleRegionsFreeze : Prop :=
  ∀ (r : Rg) (s : State) (tk : Task) (first : Nat),
    let g := s.region r.val
    let last := g.clusters.foldl (fun m k => max m (s.cl k).activeBeat) (tk.startBeats + 1)
    g.state = .running → g.task = some tk → g.clusters.any s.watchOff = false →
    firstSome (fun k => !(s.cl k).shares.1.isEmpty) g.clusters = some first →
    s.inOrder (s.beat + BitVec.ofNat 48 (last + 64 - s.beats)) 61 = true →
    Gives (.deadlockWatch r) s fun t =>
      (t.region r.val).state = .faulted ∧ (∀ k ∈ g.clusters, (t.cl k).frozen = true ∧ (t.cl k).idleBeats = 64)
      ∧ t.latched (pgClCtrl first) 16 = true ∧ last + 64 ≤ t.beats

/-! ### Gangs (spec/06) -/

/-- The feed asks for the next K-step's rows as one burst, takes its words, and waits where its gate token is missing (R147, R150,
R154); a round in which the K-step has landed presents it: each member's accumulators take its sixteen firings, and counter 40
counts (R151, R152). A finished block is drained: its tile fills from the start and is READY two cycles after the end, or its
handle's rows are written, and the drain is counted (R156, R157, R265); its done token leaves the origin core once there is room
(R159). -/
def Obligations.GangsFeedDrainAndSignal : Prop :=
  ((∀ (k : Cl) (s : State),
    let u := s.settleArb k.val
    let f := (s.cl k.val).activeFold
    let w := (s.cl k.val).gd f
    let g := (s.cl k.val).gangFold f
    let rowA := ((s.cl k.val).handle (gdAHandle w)).baseRow
      + gdPieceRow (gdARow0 w) (gdAStride w) (gdAWin w) (gdARows w) (gdBlockOf w g.feedBlock).1 g.feedStep
    let rowB := ((s.cl k.val).handle (gdBHandle w)).baseRow
      + gdPieceRow (gdBRow0 w) (gdBStride w) (gdBWin w) (gdBRows w) (gdBlockOf w g.feedBlock).2 g.feedStep
    s.gangOpen k.val = true → u.feedRoom k.val = true → g.feedBlock < gdBlocks w →
    (gdGated w g.feedStep = false →
      Gives (.latticeFeedRead k) s fun t =>
        (∃ a b, (t.cl k.val).gang.idle
            = (s.cl k.val).gang.idle ++ [⟨g.feedBlock, g.feedStep, a, b, (t.cl k.val).arb.ticket 0⟩]
          ∧ a.length = 4 * gdR w ∧ b.length = 4 * gdC w
          ∧ (∀ i, i < 4 * gdR w → a[i]? = some (s.pieceWord k.val rowA (i * gdAWidth w) (gdAWidth w)))
          ∧ ∀ i, i < 4 * gdC w → b[i]? = some (s.pieceWord k.val rowB (i * 32) 32))
        ∧ SMap.getD (t.cl k.val).arb.queue 0 []
            = SMap.getD (u.cl k.val).arb.queue 0 [] ++ [{ spans := [(rowA, gdARows w), (rowB, gdBRows w)], ready := s.clock }]
        ∧ (((t.cl k.val).gangFold f).feedBlock, ((t.cl k.val).gangFold f).feedStep) = nextStep w g.feedBlock g.feedStep
        ∧ OnlyClusters [k.val] s t ∧ ChangesOnly [.pages, .clusters] s t)
    ∧ (gdGated w g.feedStep = true → g.gated.contains (g.feedBlock, g.feedStep) = false →
        (s.core k.val (gdOrigin w)).head (gdGateQ w) f s.clock = none →
        Gives (.latticeFeedRead k) s fun t => (t.cl k.val).gang.gateWait = true ∧ (t.cl k.val).gang.idle = (s.cl k.val).gang.idle))
  ∧ ∀ (k : Cl) (s : State) (x : KStep) (more : List KStep),
    let u := ((s.reachClock (max s.clock (s.cl k.val).gang.nextRound)).reachBoundary 16).settleArb k.val
    let f := (s.cl k.val).activeFold
    let w := (s.cl k.val).gd f
    let g := (s.cl k.val).gangFold f
    u.gangOpen k.val = true → u.suppressed k.val = false → g.block < gdBlocks w → (s.cl k.val).gang.idle = x :: more →
    (u.cl k.val).hasLanded x u.clock = true → x.block = g.block → x.step = g.step →
    (gdMembers w).all (fun m => (s.core k.val m.1).gates == 0) = true →
    x.step + 1 < gdKs w → ((gdMembers w).map (·.1)).Nodup →
    Gives (.gangRound k) s fun t =>
      t.clock = u.clock ∧ (t.cl k.val).gang.idle = more ∧ ((t.cl k.val).gangFold f).step = x.step + 1
      ∧ ((t.cl k.val).gangFold f).block = x.block ∧ ((t.cl k.val).gangFold f).isOpen = true ∧ (t.cl k.val).gang.phase = 1
      ∧ t.counterOf (pgClCtrl k.val) 40 = u.counterOf (pgClCtrl k.val) 40 + 1
      ∧ (∀ m ∈ gdMembers w, (t.core k.val m.1).acc = (memberRound w u.clock m.2.1 m.2.2 x (s.core k.val m.1)).acc)
      ∧ OnlyClusters [k.val] s t)
  ∧ ((∀ (k : Cl) (s : State) (f b d : Nat), (s.cl k.val).gang.run = none → (s.cl k.val).gang.drain = some (f, b, d) →
    let c := s.cl k.val
    let w := c.gd f
    let tile := SMap.getD (SMap.getD c.fes (gdDrainFe w) {}).tiles (gdTile w b) {}
    let base := (c.handle (gdDrainHandle w)).baseRow + gdDrainRow0 w + b * (4 * gdR w)
    c.frozen = false → c.gang.doneDue = [] → (gdDrainMode w = 0 → tile.state = .free) → (gdShape w b).2 ≤ 128 →
    Gives (.gangDrain k) s fun t =>
      t.clock = max s.clock (if gdDrainMode w = 0 then max d (tile.since + 1) else d)
      ∧ (t.cl k.val).gang.drain = none ∧ (t.cl k.val).rows = c.rows
      ∧ (∃ r, (t.cl k.val).gang.run = some r ∧ r.fold = f ∧ r.block = b ∧ r.start = t.clock
          ∧ (gdDrainMode w ≠ 0 → r.rows = (upto (gdShape w b).1).map fun m => (base + m, c.drainRow w b m)))
      ∧ (gdDrainMode w = 0 →
          let out := SMap.getD (SMap.getD (t.cl k.val).fes (gdDrainFe w) {}).tiles (gdTile w b) {}
          out.state = .filling ∧ out.since = t.clock
          ∧ ∀ m n, m < (gdShape w b).1 → n < (gdShape w b).2 → SMap.getD out.data (128 * m + n) {} = c.drained w m n)
      ∧ OnlyClusters [k.val] s t)
  ∧ (∀ (k : Cl) (s : State) (r : DrainRun) (fin : Nat), (s.cl k.val).gang.run = some r → (s.cl k.val).frozen = false →
    ((s.settleArb k.val).cl k.val).drainF = some fin →
    let c := s.cl k.val
    let w := c.gd r.fold
    let u := (s.settleArb k.val).reachClock (if gdDrainMode w = 0 then fin + 2 else fin)
    Gives (.gangDrain k) s fun t =>
      t.clock = u.clock ∧ (t.cl k.val).gang.run = none ∧ (t.cl k.val).gang.drainEnd = fin
      ∧ ((t.cl k.val).gangFold r.fold).drained = (c.gangFold r.fold).drained + 1
      ∧ t.counterOf (pgClCtrl k.val) 45 = u.counterOf (pgClCtrl k.val) 45 + 1
      ∧ (gdDrainMode w = 0 →
          let before := SMap.getD (SMap.getD c.fes (gdDrainFe w) {}).tiles (gdTile w r.block) {}
          let out := SMap.getD (SMap.getD (t.cl k.val).fes (gdDrainFe w) {}).tiles (gdTile w r.block) {}
          fin = r.start + 4 * gdC w ∧ out = { before with state := .ready, since := fin + 2 } ∧ (t.cl k.val).rows = c.rows)
      ∧ (gdDrainMode w ≠ 0 → (r.rows.map (·.1)).Nodup →
          (∀ x ∈ r.rows, (t.cl k.val).row k.val x.1 = x.2)
          ∧ ∀ m, m ∉ r.rows.map (·.1) → (t.cl k.val).row k.val m = c.row k.val m)
      ∧ (dCode (gdDoneDest w) ≠ 7 → (t.cl k.val).gang.doneDue = c.gang.doneDue ++ [(r.fold, r.block, if gdDrainMode w = 0 then fin + 2 else fin)])
      ∧ OnlyClusters [k.val] s t)
  ∧ ∀ (k : Cl) (s : State) (f b due : Nat) (rest : List (Nat × Nat × Nat)) (x : CoreState),
    (s.cl k.val).gang.doneDue = (f, b, due) :: rest →
    let u := s.reachClock due
    let c := s.cl k.val
    let w := c.gd f
    let last := b + 1 == gdBlocks w
    (c.core (gdOrigin w)).send ((c.core (gdOrigin w)).word f) (gdDoneDest w) u.clock (u.clock + 1) false
        [{ payload := controlPayload b 3 (b == 0) last last, ctrl := true, endBit := last }] = .ok x →
    c.frozen = false →
    Gives (.doneToken k) s fun t =>
      (t.cl k.val).gang.doneDue = rest ∧ ((t.cl k.val).gangFold f).doneSent = (c.gangFold f).doneSent + 1
      ∧ t.core k.val (gdOrigin w) = x ∧ OnlyClusters [k.val] s t)

/-! ### Row memory (spec/09) -/

/-- A free port grants the first request after its pointer, a high one first, and it is owned to the request's last row (R217, R219,
R222); a held read is presented in the cycle after the last earlier range that it overlaps has left, and its hold cycles are counted
(R223, R225). -/
def Obligations.PortsGrantInTurn : Prop :=
  (∀ (k : Cl) (p : Fin 2) (unmarked : Bool) (s : State) (r : Nat) (x : ArbRequest),
    let s' := s.settleArb k.val
    let u := (s'.reachClock ((s'.cl k.val).arb.port p.val).ends).settleArb k.val
    let a := (u.cl k.val).arb
    let cs := u.candidates k.val p.val u.clock
    let hi := cs.filter fun r => bitAt (u.arbReq k.val (arbId r)) 16
    a.now ≤ u.clock → (a.port p.val).ends ≤ u.clock → (a.port p.val).cut = false → u.clock < (a.port (1 - p.val)).ends →
    a.tableW = [] → a.tableN = [] → a.waiting u.clock = [] → a.requests.all (fun y => !y.2.held) = true →
    (if hi.isEmpty then afterPointer (a.port p.val).normal cs else afterPointer (a.port p.val).high hi) = some r →
    SMap.get? a.requests r = some x →
    Gives (.arbiterGrant k p unmarked) s fun t =>
      let o := (t.cl k.val).arb.port p.val
      o.owner = some r ∧ o.start = u.clock ∧ o.ends = u.clock + x.req.rows ∧ o.cut = (unmarked && x.req.rows == 64)
      ∧ SMap.get? (t.cl k.val).arb.requests r = none
      ∧ (if hi.isEmpty then o.normal = arbId r ∧ o.high = (a.port p.val).high else o.high = arbId r ∧ o.normal = (a.port p.val).normal)
      ∧ t.counterOf (pgArbiter k.val) (64 * p.val + 4 * arbId r) = u.counterOf (pgArbiter k.val) (64 * p.val + 4 * arbId r) + 1
      ∧ t.clock = u.clock ∧ OnlyClusters [k.val] s t)
  ∧ ∀ (k : Cl) (r : Fin 15) (s : State) (x : ArbRequest),
    let s' := s.settleArb k.val
    let meets := fun (w : WriteRange) => decide (w.serial < x.serial) && spansMeet w.spans x.req.spans
    let laps := (s'.cl k.val).arb.ranges.filter meets
    let u := (s'.reachClock (laps.foldl (fun t w => max t (w.leaves.getD 0 + 1)) 0)).settleArb k.val
    let a := (u.cl k.val).arb
    SMap.get? (s'.cl k.val).arb.requests r.val = some x → x.held = true → laps.all (fun w => w.leaves.isSome) = true →
    a.now ≤ u.clock → SMap.get? a.requests r.val = some x →
    (a.ranges.filter meets).all (fun w => w.leaves.any fun l => decide (l < u.clock)) = true →
    (∀ p : Fin 2, u.clock < (a.port p.val).ends) →
    Gives (.scoreboardRelease k r) s fun t =>
      t.clock = u.clock ∧ SMap.get? (t.cl k.val).arb.requests r.val = some { x with held := false, since := u.clock }
      ∧ (∀ w ∈ laps, ∀ l, w.leaves = some l → l < t.clock)
      ∧ (r.val ≠ 14 → t.counterOf (pgArbiter k.val) (128 + r.val)
          = u.counterOf (pgArbiter k.val) (128 + r.val) + BitVec.ofNat 64 (u.clock - x.since))
      ∧ OnlyClusters [k.val] s t

/-- A handle entry is written only while its cluster's region does not run, and within row memory; what is refused is
counted (R227, R228). A fill or copy request is taken, refused as reserved, or turned away from a full queue, as its result
says (R230). -/
def Obligations.HandlesAndPostsAreTaken : Prop :=
  (∀ (req : Req) (k : Cl) (h : Fin 64) (word : Fin 3) (value : W32) (s : State), s.pageOpen req (pgHandle k.val) = true →
    let len := field value.toNat 27 14
    let base := field value.toNat 12 0
    let n := pgHandle k.val
    let laps := word.val = 0 ∧ (8192 < len ∨ 8192 < base + len)
    Gives (.handleWrite req k h word value) s fun t =>
      (s.isRunning k.val = true → t.clusters = s.clusters ∧ t.counterOf n 0 = s.counterOf n 0 + 1)
      ∧ (s.isRunning k.val = false → laps → t.clusters = s.clusters ∧ t.counterOf n 1 = s.counterOf n 1 + 1)
      ∧ (s.isRunning k.val = false → ¬laps →
          (t.cl k.val).handle h.val = (match word.val with
            | 0 => { (s.cl k.val).handle h.val with base := value &&& 0xEFFFDFFF#32 }
            | 1 => { (s.cl k.val).handle h.val with note := value }
            | _ => { (s.cl k.val).handle h.val with ring := value &&& 0x0000FFFF#32 })
          ∧ (∀ g, g ≠ h.val → (t.cl k.val).handle g = (s.cl k.val).handle g) ∧ t.pages = s.pages)
      ∧ OnlyClusters [k.val] s t ∧ OnlyPages [n] s t)
  ∧ ∀ (req : Req) (k : Cl) (w3 : W32) (s : State), s.pageOpen req (pgRowmem k.val) = true →
    let n := pgRowmem k.val
    let p := SMap.getD (s.page n).windows req.val {}
    let w := p.w0.toNat + 2 ^ 32 * p.w1.toNat + 2 ^ 64 * p.w2.toNat + 2 ^ 96 * w3.toNat
    let full := 8 ≤ (s.cl k.val).fillCopy.length
    Gives (.fcPost req k w3) s fun t =>
      let result := (SMap.getD (t.page n).windows req.val {}).result
      (fcReserved w = true → result = 2 ∧ t.clusters = s.clusters)
      ∧ (fcReserved w = false → full → result = 1 ∧ t.clusters = s.clusters)
      ∧ (fcReserved w = false → ¬full → result = 0
          ∧ (t.cl k.val).fillCopy = (s.cl k.val).fillCopy ++ [{ bits := BitVec.ofNat 2048 w, poster := some req.val }])
      ∧ OnlyClusters [k.val] s t ∧ OnlyPages [n] s t ∧ ChangesOnly [.pages, .clusters] s t

/-- A fill writes its pattern, and a copy its source rows as they stood, to the rows that the request names, and to no other
row (R229, R230); a request whose handles do not cover it is reported with code 0x74 to its poster's page. -/
def Obligations.FillAndCopyWriteTheirRows : Prop :=
  ∀ (k : Cl) (op : Nat) (i : Instr) (s : State) (d : PendingDesc) (rest : List PendingDesc),
    (i = .rowFill k ∧ op = 1) ∨ (i = .rowCopy k ∧ op = 2) → s.fcHead k.val op = some (d, rest) →
    let c := s.cl k.val
    let w := d.bits.toNat
    let base := (c.handle (fcDst w)).baseRow + fcDstRow w
    Gives i s fun t =>
      (t.cl k.val).fillCopy = rest ∧ OnlyClusters [k.val] s t
      ∧ (fcReserved w = false → c.fcOk w = true →
          (∀ j, j < fcCount w → (t.cl k.val).row k.val (base + j)
            = if op = 1 then patternRow (field w 31 0) else c.row k.val ((c.handle (fcSrc w)).baseRow + fcSrcRow w + j))
          ∧ (∀ r, r < base ∨ base + fcCount w ≤ r → (t.cl k.val).row k.val r = c.row k.val r))
      ∧ (fcReserved w = true ∨ c.fcOk w = false →
          (∀ r, (t.cl k.val).row k.val r = c.row k.val r)
          ∧ ∀ q, d.poster = some q → (t.page (pgRowmem k.val)).err
              = ((s.page (pgRowmem k.val)).report s.clock 0 0x74 (q * 4096 + fcOp w)).err
            ∧ t.counterOf (pgRowmem k.val) 13 = s.counterOf (pgRowmem k.val) 13 + 1)

/-- A remote write of whole rows by the owning context lands in the handle that holds them, row by row, is counted row by
row, and is acknowledged; any other is answered with 0x83 and changes no row. A remote read answers with its rows (R231 to
R233, R318). -/
def Obligations.RemoteRowsAreReadAndWritten : Prop :=
  (∀ (p : Packet) (s : State) (k row byte : Nat), placeOf p.addr.toNat = .rowWindow k row byte →
    let n := p.data.length / 16
    let whole := byte = 0 ∧ p.data.length % 16 = 0 ∧ 1 ≤ n ∧ n ≤ 4 ∧ p.mask = none ∧ s.ownerOf k = some p.ctx.toNat
    Gives (.remoteWrite p) s fun t =>
      (∀ h, whole → (s.cl k).remoteHandle row n = some h →
        Injected (answer p 4 0) t
        ∧ (∀ i, i < n → (t.cl k).row k (row + i) = (rowsFromWords (wordsOf p)).getD i {})
        ∧ (∀ r, r < row ∨ row + n ≤ r → (t.cl k).row k r = (s.cl k).row k r)
        ∧ (t.cl k).arrival h = (s.cl k).arrival h + BitVec.ofNat 32 n)
      ∧ (¬whole ∨ (s.cl k).remoteHandle row n = none ∧ (s.cl k).ringAt row n = none →
          Injected (answer p 5 0x83) t ∧ t.clusters = s.clusters
          ∧ t.counterOf (pgRowmem k) 3 = (s.receive p).counterOf (pgRowmem k) 3 + 1)
      ∧ OnlyClusters [k] s t)
  ∧ ∀ (p : Packet) (s : State) (k row byte : Nat), placeOf p.addr.toNat = .rowWindow k row byte →
    let n := p.len.toNat / 16
    let whole := byte = 0 ∧ p.len.toNat % 16 = 0 ∧ 1 ≤ n ∧ n ≤ 4 ∧ s.ownerOf k = some p.ctx.toNat
    Gives (.remoteRead p) s fun t =>
      t.cl k = { s.cl k with arb := (t.cl k).arb } ∧ OnlyClusters [k] s t
      ∧ (∀ h, whole → (s.cl k).remoteHandle row n = some h →
          ∃ q, Injected q t ∧ q.opcode = 3#8 ∧ q.dest = p.src ∧ q.tag = p.tag
            ∧ q.data = ((upto n).flatMap fun i => ((s.cl k).row k (row + i)).words).map (·.bits))
      ∧ (¬whole ∨ (s.cl k).remoteHandle row n = none → Injected (answer p 5 0x83) t)

/-- A notification goes to its share against a credit (R235). A reservation that a ring has room for is placed and answered;
one larger than the ring is refused with 0x84 (R237, R239); a release frees rows or is counted as refused (R238); a
reservation that has waited too long is refused; one answered with a retry is presented again at the next beat boundary
(R239, R319). -/
def Obligations.NotificationsAndRings : Prop :=
  (∀ (k : Cl) (h : Fin 64) (s : State) (v : Nat) (poison : Bool) (rest : List (Nat × Bool)),
    let c := s.cl k.val
    let hd := c.handle h.val
    let nt := SMap.getD c.notifiers h.val {}
    let core := (s.core k.val hd.noteCore).settleSlack s.clock
    nt.pending = (v, poison) :: rest → nt.credit ≠ 0 → hd.valid = true → cwValid (core.word hd.noteFold) = true →
    SMap.get? core.closed (pairKey hd.noteQueue hd.noteFold) = none → core.hasPath hd.noteQueue hd.noteFold = false →
    core.held hd.noteQueue hd.noteFold < cwCred (core.word hd.noteFold) hd.noteQueue →
    Gives (.notificationSend k h) s fun t =>
      let out := SMap.getD (t.cl k.val).notifiers h.val {}
      out.pending = rest ∧ out.credit = nt.credit - 1 ∧ out.sent = nt.sent + 1
      ∧ t.counterOf (pgRowmem k.val) 10 = s.counterOf (pgRowmem k.val) 10 + 1
      ∧ ∃ tok : Token, (t.core k.val hd.noteCore).queue hd.noteQueue = withArrival (core.queue hd.noteQueue) ⟨tok, s.clock, 0⟩
          ∧ tok.ctrl = true ∧ tok.poison = poison ∧ field tok.payload.toNat 31 0 = v % 2 ^ 32)
  ∧ (∀ (p : Packet) (s : State) (k row h : Nat), placeOf p.addr.toNat = .rowWindow k row 0 → (s.cl k).ringHandle row = some h →
    s.ownerOf k = some p.ctx.toNat →
    let size := ((s.cl k).handle h).length
    let n := p.rsvRows.toNat
    let ring := SMap.getD (s.cl k).rings h {}
    let u := s.receive p
    let late := u.ringLate k h ((((s.cl k).ringSeen.find? (ringKey p)).map (·.2.2.2)).getD u.clock)
    Gives (.ringReserve p) s fun t =>
      (n = 0 ∨ size < n → Injected (answer p 5 0x84) t ∧ t.counterOf (pgRowmem k) 6 = u.counterOf (pgRowmem k) 6 + 1
        ∧ t.clusters = s.clusters)
      ∧ (n ≠ 0 → n ≤ size → late = true →
          Injected (answer p 5 0x84) t ∧ t.counterOf (pgRowmem k) 7 = u.counterOf (pgRowmem k) 7 + 1)
      ∧ (∀ r at_ skip, n ≠ 0 → n ≤ size → late = false → (s.cl k).ringWaiters.any (fun w => w.handle == h) = false →
          ring.reserve size n = some (r, at_, skip) →
          Injected { answer p 0x11 0 with placeRow := BitVec.ofNat 13 at_ } t
          ∧ SMap.getD (t.cl k).rings h {} = { r with placed := r.placed ++ [(at_, n, senderOf p, 0)] }
          ∧ t.counterOf (pgRowmem k) 4 = u.counterOf (pgRowmem k) 4 + 1)
      ∧ OnlyClusters [k] s t)
  ∧ (∀ (req : Req) (k : Cl) (h : Fin 64) (rows : BitVec 14) (s : State), s.pageOpen req (pgHandle k.val) = true →
    let ring := SMap.getD (s.cl k.val).rings h.val {}
    let size := ((s.cl k.val).handle h.val).length
    Gives (.ringRelease req k h rows) s fun t =>
      (ring.release size rows.toNat = none → t.clusters = s.clusters ∧ t.latched (pgRowmem k.val) 5 = true
        ∧ t.counterOf (pgRowmem k.val) 12 = s.counterOf (pgRowmem k.val) 12 + 1)
      ∧ (∀ r, ring.release size rows.toNat = some r → (s.cl k.val).ringWaiters = [] →
          SMap.getD (t.cl k.val).rings h.val {} = r ∧ t.pages = s.pages)
      ∧ OnlyClusters [k.val] s t)
  ∧ (∀ (k : Cl) (h : Fin 64) (s : State) (w : RingWaiter), (s.cl k.val).ringWaiters = [w] → w.handle = h.val →
    Gives (.ringWaitTimeout k h) s fun t =>
      (t.cl k.val).ringWaiters = [] ∧ Injected (answer w.packet 5 0x84) t
      ∧ t.clock = max s.clock (s.limitAt w.since 4096 ((s.cl k.val).handle h.val).ringWait)
      ∧ t.latched (pgRowmem k.val) 4 = true)
  ∧ ∀ (p q : Packet) (s : State),
    ((s.cl (epNumber p.dest)).stream.slots.findSome? fun x => x.2.post.bind fun q => if q.tag = p.tag then some q else none)
      = some q →
    Gives (.ringRetry p) s fun t =>
      (t.cl (epNumber p.dest)).retries = (s.cl (epNumber p.dest)).retries ++ [(q, (s.receive p).beats + 1)]
      ∧ t.clock = (s.receive p).clock
      ∧ OnlyClusters [epNumber p.dest] s t ∧ ChangesOnly (timeParts ++ [.clusters, .mesh]) s t

/-! ### Harness links (spec/17) -/

/-- A link that is enabled trains, and one that is disabled is OFF (R448); a retrain, and a lane failure of an UP link, stop its channels
and keep what is to be replayed (R435, R441, R447); training ends in UP with the lanes that both ends may use, or in FAILED with its
reason (R446); it starts anew after 100 ms (R449); the Harness is done when no enabled link trains, or after 10 s (R449), both in cycles of the
management clock (R7). -/
def Obligations.LinksTrainAndFail : Prop :=
  (∀ (req : Req) (l : Fin 48) (s : State), s.pageOpen req (pgTrunk (trunkOf l.val)) = true → s.linkEnabled l.val = false →
    (s.link l.val).laneTest = [] →
    Gives (.linkEnable req l) s fun t =>
      t.linkEnabled l.val = true ∧ t.link l.val = { s.link l.val with mode := .training, fail := 0, trainAt := s.mgmtClock }
      ∧ (∀ m, m ≠ l.val → t.link m = s.link m) ∧ OnlyPages [pgTrunk (trunkOf l.val)] s t ∧ ChangesOnly [.pages, .harness] s t)
  ∧ (∀ (req : Req) (l : Fin 48) (s : State), s.pageOpen req (pgTrunk (trunkOf l.val)) = true → s.linkEnabled l.val = true →
    Gives (.linkDisable req l) s fun t =>
      let n := pgTrunk (trunkOf l.val)
      t.linkEnabled l.val = false ∧ (t.link l.val).mode = .off ∧ (∀ m, m ≠ l.val → t.link m = s.link m)
      ∧ ((s.link l.val).mode ≠ .off → (s.link l.val).mode ≠ .failed →
          (t.link l.val).replay = [] ∧ (∀ i c, (t.channel i l.val c).mode ≠ .opened)
          ∧ t.counterOf n (16 * linkNo l.val + 15)
              = s.counterOf n (16 * linkNo l.val + 15) + BitVec.ofNat 64 (s.link l.val).replay.length
          ∧ (t.page n).err = ((s.page n).report s.clock 0 0x65 0).err)
      ∧ OnlyPages [n] s t ∧ ChangesOnly [.pages, .harness] s t)
  ∧ (∀ (l : Fin 48) (cause : RetrainCause) (s : State), (s.link l.val).mode = .up → s.retrainDue l.val cause = true →
    let n := pgTrunk (trunkOf l.val)
    let u := if cause = .ackTimeout then s.reachClock ((s.link l.val).ackAt + 65536) else s
    Gives (.retrain l cause) s fun t =>
      (t.link l.val).mode = .retraining ∧ (t.link l.val).trainAt = u.mgmtClock ∧ (t.link l.val).replay = (s.link l.val).replay
      ∧ (∀ i c, (t.channel i l.val c).mode ≠ .opened) ∧ t.clock = u.clock ∧ t.latched n 2 = true
      ∧ t.counterOf n (16 * linkNo l.val + 4) = u.counterOf n (16 * linkNo l.val + 4) + 1
      ∧ (∀ m, m ≠ l.val → t.link m = s.link m) ∧ ChangesOnly [.pages, .harness] u t)
  ∧ (∀ (l : Fin 48) (lane : Fin 4) (s : State), (s.link l.val).mode ≠ .off → bitAt (s.link l.val).retired.toNat lane.val = false →
    let n := pgTrunk (trunkOf l.val)
    Gives (.laneFail l lane) s fun t =>
      (t.link l.val).retired = (s.link l.val).retired ||| BitVec.ofNat 4 (2 ^ lane.val)
      ∧ ((s.link l.val).mode = .up → (t.link l.val).mode = .retraining)
      ∧ ((s.link l.val).mode ≠ .up → (t.link l.val).mode = (s.link l.val).mode)
      ∧ (t.page n).err = ((s.page n).report s.clock 0 0x65 0).err ∧ (∀ m, m ≠ l.val → t.link m = s.link m)
      ∧ OnlyPages [n, pgMgmt] s t ∧ ChangesOnly [.pages, .harness, .spares] s t)
  ∧ (∀ (l : Fin 48) (s : State), (s.link l.val).mode = .training ∨ (s.link l.val).mode = .retraining →
    (Gives (.linkTraining l none) s fun t => (t.link l.val).mode = .failed ∧ (t.link l.val).fail = 0
      ∧ t.mgmtClock = max s.mgmtClock ((s.link l.val).trainAt + 20000000))
    ∧ ∀ i : TrainInfo,
      (∀ r, trainFault s.moduleId (s.link l.val) i = some r →
        Gives (.linkTraining l (some i)) s fun t =>
          (t.link l.val).mode = .failed ∧ (t.link l.val).fail = r
          ∧ (t.link l.val).peer = (if r = 3 then (s.link l.val).peer else some (i.peerModule, i.peerTrunk, i.peerLink)))
      ∧ (trainFault s.moduleId (s.link l.val) i = none →
        Gives (.linkTraining l (some i)) s fun t =>
          let x := t.link l.val
          x.mode = .up ∧ x.lanes = BitVec.ofNat 4 (laneSet (goodLanes (s.link l.val) i)) ∧ x.lh = latencyRounds i.rttMax
          ∧ x.rtt = i.rttMax ∧ x.peer = some (i.peerModule, i.peerTrunk, i.peerLink)
          ∧ (s.sendTraining l.val i none).out <+: t.out
          ∧ t.latched (pgTrunk (trunkOf l.val)) 1 = true ∧ (∀ m, m ≠ l.val → t.link m = s.link m) ∧ t.clock = s.clock))
  ∧ (∀ (l : Fin 48) (s : State), (s.link l.val).mode = .training →
    Gives (.trainingRestart l) s fun t =>
      t.mgmtClock = max s.mgmtClock ((s.link l.val).trainAt + 10000000) ∧ t.link l.val = { s.link l.val with trainAt := t.mgmtClock }
      ∧ (∀ m, m ≠ l.val → t.link m = s.link m) ∧ ChangesOnly [.mgmtClock, .harness] s t)
  ∧ ∀ (timedOut : Bool) (s : State), s.harness.done = false → s.boot.phase = .ioEnabled ∨ s.boot.phase = .released →
    let ended := ∀ l, l < 48 → s.linkEnabled l = false ∨ (s.link l).mode = .up ∨ (s.link l).mode = .failed
    (ended → Gives (.harnessDone timedOut) s fun t =>
      t.harness = { s.harness with done := true } ∧ t.latched pgModule 2 = true ∧ ChangesOnly [.pages, .harness] s t)
    ∧ (¬ended → timedOut = true → Gives (.harnessDone timedOut) s fun t =>
      t.harness = { s.harness with done := true } ∧ t.latched pgModule 2 = true
      ∧ t.mgmtClock = max s.mgmtClock (s.harness.trainAt + 1000000000) ∧ ChangesOnly [.mgmtClock, .pages, .harness] s t)

/-- CIRCUIT_OPEN is refused, and counted, or opens a closed channel with its grant; a STOPPED channel opens with what it holds
(R438, R439, R441). CIRCUIT_CLOSE discards the channel's tokens and counts them (R438). At a circuit stop no channel stays OPEN (R441).
An outbound token goes into the link against link credit, an inbound one onto its seam line (R440). -/
def Obligations.CircuitsCarryTokens : Prop :=
  (∀ (t : Fin 6) (s u : State) (e : CalEntry), s.takeEntry (pgTrunk t.val) 0x20 = some (e, u) →
    let arg := e.arg.toNat
    let inb := bitAt arg 25
    let l := 8 * t.val + field arg 24 22
    let ch := field arg 21 17
    let new := openChannel arg
    Gives (.circuitOpen t) s fun v =>
      (u.openRefused inb l ch new = true →
        v.harness = u.harness ∧ v.counterOf (pgTrunk t.val) 194 = u.counterOf (pgTrunk t.val) 194 + 1
        ∧ v.latched (pgTrunk t.val) 6 = true)
      ∧ (u.openRefused inb l ch new = false → (u.channel inb l ch).mode = .closed →
          v.channel inb l ch = { new with owed := (v.channel inb l ch).owed }
          ∧ (inb = false → (v.channel inb l ch).owed = 12 * 2 ^ field arg 5 3))
      ∧ (u.openRefused inb l ch new = false → (u.channel inb l ch).mode = .stopped →
          v.channel inb l ch = { u.channel inb l ch with mode := .opened, owed := (v.channel inb l ch).owed })
      ∧ (∀ j m c, ¬(j = inb ∧ m = l ∧ c = ch) →
          (v.channel j m c).mode = (u.channel j m c).mode ∧ (v.channel j m c).tokens = (u.channel j m c).tokens)
      ∧ v.clock = u.clock)
  ∧ (∀ (t : Fin 6) (s u : State) (e : CalEntry), s.takeEntry (pgTrunk t.val) 0x21 = some (e, u) →
    let arg := e.arg.toNat
    let inb := bitAt arg 25
    let l := 8 * t.val + field arg 24 22
    let ch := field arg 21 17
    let held := (u.channel inb l ch).tokens.length + if inb then 0 else inSlots ch (u.link l).slots
    let c := 16 * field arg 24 22 + 9
    Gives (.circuitClose t) s fun v =>
      v.channel inb l ch = {} ∧ v.counterOf (pgTrunk t.val) c = u.counterOf (pgTrunk t.val) c + BitVec.ofNat 64 held
      ∧ (∀ j m d, ¬(j = inb ∧ m = l ∧ d = ch) → v.channel j m d = u.channel j m d)
      ∧ OnlyPages [pgTrunk t.val] u v ∧ ChangesOnly [.pages, .harness] u v)
  ∧ (∀ s : State, s.mt.stopDue = true →
    Gives .islandCircuitStop s fun t =>
      (∀ i l c, l < 48 → (t.channel i l c).mode ≠ .opened) ∧ (∀ i l c, (t.channel i l c).tokens = (s.channel i l c).tokens)
      ∧ t.now % 4096 = 0 ∧ t.mt.stopDue = false ∧ ChangesOnly (timeParts ++ [.harness]) s t)
  ∧ (∀ (l : Fin 48) (ch : Fin 32) (s : State) (x : ChannelToken) (rest : List ChannelToken),
    let c := s.channel false l.val ch.val
    s.flights = [] → c.tokens = x :: rest → c.mode = .opened → c.credit ≠ 0 →
    Gives (.circuitToken l ch false) s fun t =>
      (t.channel false l.val ch.val).tokens = rest ∧ (t.channel false l.val ch.val).credit = c.credit - 1
      ∧ ((s.link l.val).mode = .up → (s.link l.val).replay.length < 256 → s.out.length < t.out.length)
      ∧ ((s.link l.val).mode ≠ .up → (t.link l.val).slots = joinSlot ch.val x (s.link l.val).slots)
      ∧ t.clock = s.clock)
  ∧ ∀ (l : Fin 48) (ch : Fin 32) (s : State) (x : ChannelToken) (rest : List ChannelToken),
    let c := s.channel true l.val ch.val
    let io := linkDie l.val
    let edge := coreAt (lineCluster io c.line) 0 0 + lineCore io c.line
    c.tokens = x :: rest → c.mode ≠ .closed → c.credit ≠ 0 → s.ownsLine io c = true → s.now ≤ x.cycle →
    let u := s.advance (x.cycle - s.now)
    let taken := s.flights.any fun f => f.dest == edge && f.dir == seamDir io && f.due == u.clock + 33
    Gives (.circuitToken l ch true) s fun t =>
      (t.channel true l.val ch.val).tokens = rest ∧ (t.channel true l.val ch.val).credit = c.credit - 1
      ∧ (taken = false → t.clock = u.clock ∧ t.flights = s.flights ++ [⟨edge, seamDir io, u.clock + 33, u.clock, x.tok⟩])
      ∧ (taken = true → u.clock < t.clock ∧ t.clock ≤ u.clock + 16
          ∧ ∃ f ∈ t.flights, f.dest = edge ∧ f.dir = seamDir io ∧ f.due = t.clock + 33)
      ∧ ((s.link l.val).slots = [] → (s.link l.val).items = [] →
          t.counterOf (pgTrunk (trunkOf l.val)) (16 * linkNo l.val + 8)
            = u.counterOf (pgTrunk (trunkOf l.val)) (16 * linkNo l.val + 8) + 1)

/-- A route entry is written (R443). A packet for another module waits at the link that R444 chooses among those of its entry that are
UP, or crosses to the other hub, or is unroutable and answered with 0x85 (R444, R445). A NAK has the unacknowledged frames sent again in
order (R434). A frame whose CRC fails is discarded and asked for again; the expected one is taken; another is counted (R434). A lane
test is a custody action that takes the link down (R450). -/
def Obligations.FramesCarryPackets : Prop :=
  (∀ (req : Req) (d : Fin 2) (value : W32) (s : State), s.pageOpen req (pgIoDie d.val) = true → field value.toNat 29 27 < 6 →
    let i := s.regOf (pgIoDie d.val) 0x90 % 16384
    Gives (.routeWrite req d value) s fun t =>
      SMap.getD t.harness.routes i 0
        = BitVec.ofNat 32 (field value.toNat 31 30 <<< 30 + field value.toNat 29 27 <<< 27 + value.toNat % 256)
      ∧ (∀ j, j ≠ i → SMap.getD t.harness.routes j 0 = SMap.getD s.harness.routes j 0) ∧ t.harness.links = s.harness.links
      ∧ ChangesOnly [.harness] s t)
  ∧ (∀ (d : Fin 2) (p : Packet) (from_ : Option (Fin 6)) (setB : Bool) (s : State), s.leavesModule p = true →
    let u := s.takeAtHub p from_ setB
    let e := u.routeEntry p.dmod
    let up := if bitAt e 31 then u.upLinks e else []
    let l := up.getD (pathHash p % up.length) 0
    let set := ofBool (u.onSetB e from_ setB)
    let sent := fun (q : Packet) (t : State) => ((t.router (320 + d.val)).held.getLast?.map (·.packet)) = some q
    Gives (.crossModulePacket d p from_ setB) s fun t =>
      (channelOf p = 3 →
        t.harness = u.harness ∧ t.counterOf (pgTrunk (3 * d.val)) 193 = u.counterOf (pgTrunk (3 * d.val)) 193 + 1)
      ∧ (channelOf p ≠ 3 → up = [] →
          t.harness = u.harness ∧ t.counterOf (pgTrunk (3 * d.val)) 192 = u.counterOf (pgTrunk (3 * d.val)) 192 + 1
          ∧ (channelOf p = 0 → sent (answer p 5 0x85) t) ∧ (channelOf p = 2 → sent (answer p 0x21 0x85) t))
      ∧ (channelOf p ≠ 3 → up ≠ [] → u.exitHub p ≠ d.val → sent p t ∧ t.harness = u.harness)
      ∧ (channelOf p ≠ 3 → up ≠ [] → u.exitHub p = d.val →
          t = u.queuePacket l set p
          ∧ ((u.link l).items = [] → (u.link l).replay.length < 256 →
              (packetFlits p).length ≤ SMap.getD (u.link l).sendCredit (pairSet (linkPair p) set) 0 →
              u.out.length < t.out.length)))
  ∧ (∀ (l : Fin 48) (ack : BitVec 12) (s : State), (s.link l.val).mode = .up →
    let x := s.link l.val
    let rest := dropAcked ack.toNat x.replay
    let c := 16 * linkNo l.val + 3
    Gives (.replay l ack) s fun t =>
      (t.link l.val).peerNak = true
      ∧ (s.out ++ rest.map fun f => .frame l.val (stampFrame f.frame.toNat x.ack x.nak)) <+: t.out
      ∧ (rest.map fun f => { f with resent := f.resent + 1 }) <+: (t.link l.val).replay
      ∧ (rest ≠ [] → t.counterOf (pgTrunk (trunkOf l.val)) c = s.counterOf (pgTrunk (trunkOf l.val)) c + 1))
  ∧ (∀ (l : Fin 48) (frame : BitVec 3200) (s : State), (s.link l.val).mode = .up →
    let w := frame.toNat
    let n := pgTrunk (trunkOf l.val)
    let c := 16 * linkNo l.val
    let x := s.link l.val
    let ahead := (field w 87 76 + 4096 - x.recvSeq) % 4096
    (frameCrc w ≠ field w 3199 3168 →
      Gives (.dataFrame l frame) s fun t =>
        t.link l.val = { x with nak := true } ∧ t.out = s.out ++ [.frame l.val (stampFrame 0 x.ack true)]
        ∧ t.counterOf n (c + 2) = s.counterOf n (c + 2) + 1 ∧ ChangesOnly [.pages, .harness, .out] s t)
    ∧ (frameCrc w = field w 3199 3168 → field w 95 88 = 1 →
      Gives (.dataFrame l frame) s fun t =>
        (ahead = 0 → (t.link l.val).recvSeq = (x.recvSeq + 1) % 4096 ∧ (t.link l.val).nak = false
          ∧ t.counterOf n (c + 1) = s.counterOf n (c + 1) + 1)
        ∧ (ahead ≠ 0 → (t.link l.val).recvSeq = x.recvSeq ∧ (ahead < 2048 → (t.link l.val).nak = true)
          ∧ t.counterOf n (c + 2) = s.counterOf n (c + 2) + 1)
        ∧ t.clock = s.clock))
  ∧ ∀ (req : Req) (l : Fin 48) (lane : Fin 4) (value : W32) (s : State), s.pageOpen req (pgTrunk (trunkOf l.val)) = true →
    bitAt value.toNat 31 = true → field value.toNat 29 27 < 6 →
    bitAt (SMap.getD (s.link l.val).laneTest lane.val 0).toNat 31 = false →
    let n := pgTrunk (trunkOf l.val)
    (s.custody.present = true →
      Gives (.laneTest req l lane value) s fun t =>
        SMap.getD (t.link l.val).laneTest lane.val 0
          = BitVec.ofNat 32 (2 ^ 31 + field value.toNat 29 27 <<< 27 + field value.toNat 26 26 <<< 26)
        ∧ t.custody.acts = s.custody.acts + 1 ∧ ((s.link l.val).laneTest = [] → (t.link l.val).mode = .failed)
        ∧ (∀ m, m ≠ l.val → t.link m = s.link m) ∧ ChangesOnly [.pages, .harness, .custody] s t)
    ∧ (s.custody.present = false →
      Gives (.laneTest req l lane value) s fun t =>
        (t.page n).err = ((s.page n).report s.clock 0 0xC0 (req.val * 4096 + (0x400 + 4 * (4 * linkNo l.val + lane.val)))).err
        ∧ t.counterOf pgCustody 0 = s.counterOf pgCustody 0 + 1 ∧ ChangesOnly [.pages] s t)

/-! ### The mesh and Stitch packets (spec/12) -/

/-- The one packet that asks for an output moves a flit in the first cycle that it can: to the next router's input, or, its last flit
gone, to its endpoint, which the tail reaches after the exit's cycles (R309, R310, R312). A header with an uncorrectable error is
fatal, and the packet lost (R315). -/
def Obligations.PacketsCrossTheMesh : Prop :=
  (∀ (r : Fin 322) (out : Fin 16) (s : State) (h : HeldPacket) (at_ : Nat) (ts : List Nat),
    (s.router r.val).held = [h] → (s.router r.val).store = [] → h.packet.badHeader = false → h.flits = at_ :: ts → h.input < 16 →
    channelOf h.packet ≠ 2 ∨ h.stored = true → s.outputOf r.val h.packet = out.val → s.hasCredit r.val out.val h.packet = true →
    let u := s.reachClock (max at_ (SMap.getD (s.router r.val).nextGrant out.val 0 / flitsPerCycle r.val out.val))
    let c := 4 * portNumber out.val + channelOf h.packet
    Gives (.packetHop r out) s fun t =>
      t.clock = u.clock ∧ t.counterOf (pgRouter r.val) c = u.counterOf (pgRouter r.val) c + 1
      ∧ (∀ q input lat seam, nextRouter r.val out.val = some (q, input, lat, seam) →
          (∃ g ∈ (t.router q).held, g.packet = h.packet ∧ g.input = input ∧ u.clock + lat ∈ g.flits)
          ∧ t.mesh.delivered = s.mesh.delivered)
      ∧ (nextRouter r.val out.val = none →
          (flitsOf h.packet ≤ h.sent + 1 →
            (t.router r.val).held = []
            ∧ t.mesh.delivered = s.mesh.delivered ++ [⟨h.packet, u.clock + exitLatency r.val out.val⟩])
          ∧ (h.sent + 1 < flitsOf h.packet →
            (flitsOf h.packet ≤ h.got → (t.router r.val).held = [{ h with flits := ts, sent := h.sent + 1 }])
            ∧ t.mesh.delivered = s.mesh.delivered))
      ∧ ChangesOnly [.pages, .mesh] u t)
  ∧ ∀ (r : Fin 322) (out : Fin 16) (s : State) (h : HeldPacket),
    firstSome (fun x => x.packet.badHeader) (s.router r.val).held = some h →
    Gives (.packetHop r out) s fun t =>
      (t.router r.val).held.map (·.packet) = (listErase (s.router r.val).held h).map (·.packet)
      ∧ t.boot = { s.boot with viral := true, fatalLow := true }
      ∧ (t.page (pgRouter r.val)).err = ((s.page (pgRouter r.val)).report s.clock 3 0x61 (portNumber h.input)).err
      ∧ t.mesh.delivered = s.mesh.delivered ∧ ChangesOnly [.pages, .mesh, .boot] s t

/-- A Stitch packet enters the store in the cycle after its tail; with an older packet of its key it merges under a note, or waits where
no note is free (R321, R322). A hold that has passed frees a packet (R321). The destination combines and answers (R323 to R325); a note
splits an answer (R323). The Stitch unit sends while fewer than 64 packets are unanswered, and takes the answers (R327, R328). -/
def Obligations.StitchesMergeAndSplit : Prop :=
  (∀ (r : Fin 322) (p : Packet) (s : State) (h : HeldPacket) (tail : Nat),
    let x := s.router r.val
    x.store.length < 16 → p.badHeader = false → x.takeStitch p = some (h, tail) →
    let u := s.reachClock (tail + 1)
    let new : StitchHeld := { packet := p, input := h.input, entered := u.clock }
    new ∉ x.store →
    Gives (.stitch r p) s fun t =>
      t.clock = u.clock ∧ (t.router r.val).held.map (·.packet) = (listErase x.held h).map (·.packet)
      ∧ (mergePartner x.store new u.clock = none → (t.router r.val).store = x.store ++ [new])
      ∧ (∀ o n, mergePartner x.store new u.clock = some o → u.combineEn r.val = true → x.freeNote = some n →
          (t.router r.val).store = x.store.map (fun y => if y = o then
            { packet := mergePackets r.val n s.moduleId o.packet p, input := o.input, entered := u.clock + 6, merged := true,
              free := true } else y)
          ∧ SMap.get? (t.router r.val).notes n = some (ackTarget o.packet, ackTarget p)
          ∧ t.counterOf (pgRouter r.val) 48 = u.counterOf (pgRouter r.val) 48 + 1)
      ∧ (∀ o, mergePartner x.store new u.clock = some o → u.combineEn r.val = true → x.freeNote = none →
          (t.router r.val).store = x.store ++ [new] ∧ t.counterOf (pgRouter r.val) 49 = u.counterOf (pgRouter r.val) 49 + 1)
      ∧ ChangesOnly [.pages, .mesh] u t)
  ∧ (∀ (r : Fin 322) (s : State) (h : StitchHeld), firstSome (fun h => !h.free) (s.router r.val).store = some h →
    Gives (.stitchHoldExpiry r) s fun t =>
      t.clock = max s.clock (h.entered + s.stitchHold r.val)
      ∧ (t.router r.val).store = (s.router r.val).store.map (fun y => if y = h then { y with free := true } else y)
      ∧ (∀ q, q ≠ r.val → t.router q = s.router q) ∧ ChangesOnly (timeParts ++ [.mesh]) s t)
  ∧ (∀ (p : Packet) (s : State),
    (∀ k row byte, placeOf p.addr.toNat = .rowWindow k row byte →
      Gives (.stitchCombine p) s fun t =>
        (((s.cl k).remoteHandle row 1).isSome = true → s.ownerOf k = some p.ctx.toNat →
          (t.cl k).row k row = ((s.cl k).row k row).putWords byte
            (stitchWords p ((((s.cl k).row k row).words.drop (byte / 32)).take p.data.length) (wordsOf p))
          ∧ (∀ m, m ≠ row → (t.cl k).row k m = (s.cl k).row k m) ∧ Injected (answer p 0x21 0) t)
        ∧ (((s.cl k).remoteHandle row 1).isSome = false ∨ s.ownerOf k ≠ some p.ctx.toNat →
          t.clusters = s.clusters ∧ Injected (answer p 0x21 0x83) t)
        ∧ OnlyClusters [k] s t)
    ∧ ∀ stack loc, placeOf p.addr.toNat = .hbm stack loc →
      let st := s.memStatus p.ctx.toNat p.addr.toNat true
      Gives (.stitchCombine p) s fun t =>
        Injected (answer p 0x21 st) t ∧ t.clusters = s.clusters
        ∧ (st ≠ 0 → t.mem = s.mem)
        ∧ (st = 0 → t.mem.bytes = (s.mem.putWords (homeOf stack loc) (stitchWords p
            ((upto p.data.length).map fun i => s.mem.word (homeOf stack loc + 32 * i)) (wordsOf p)) none).bytes))
  ∧ (∀ (p : Packet) (s : State) (a b : AckTarget), epKind p.dest = 3 →
    let r := epNumber p.dest
    let n := epNoteNumber p.dest
    SMap.get? (s.router r).notes n = some (a, b) →
    Gives (.stitchAck p) s fun t =>
      (t.router r).held.map (·.packet) = (s.router r).held.map (·.packet) ++ [noteAck p a, noteAck p b]
      ∧ t.counterOf (pgRouter r) 51 = (s.receive p).counterOf (pgRouter r) 51 + 1
      ∧ ((s.router r).store = [] → SMap.get? (t.router r).notes n = none) ∧ ChangesOnly (timeParts ++ [.mesh]) s t)
  ∧ (∀ (p : Packet) (s : State) (o : StitchOut), epKind p.dest = 0 → p.status = 0 →
    let k := epNumber p.dest
    firstSome (fun o => o.tag == p.tag.toNat) (s.cl k).stitchOut = some o →
    Gives (.stitchAck p) s fun t =>
      (t.cl k).stitchOut = listErase (s.cl k).stitchOut o
      ∧ (∀ d, (s.cl k).stitchDesc = some d → (s.cl k).stitchOut = [o] → snSegs d.toNat ≤ (s.cl k).stitchList.record →
          (t.cl k).stitchDesc = none ∧ (t.cl k).stitchList.pos = (s.cl k).stitchList.pos + 32)
      ∧ OnlyClusters [k] s t)
  ∧ ∀ (k : Cl) (s : State) (d : BitVec 256),
    let c := s.cl k.val
    let i := c.stitchList.record
    let n := min (snSegs d.toNat - i) (64 - c.stitchOut.length)
    let p := s.stitchPacket k.val d.toNat i c.stitchTag (s.stitchSource k.val d.toNat i).2
    c.stitchDesc = some d → s.halts k.val = false → n ≠ 0 →
    Gives (.send k) s fun t =>
      (t.cl k.val).stitchList.record = i + n ∧ (t.cl k.val).stitchOut.length = c.stitchOut.length + n
      ∧ (t.cl k.val).stitchOut[c.stitchOut.length]? = some ⟨c.stitchTag, p, i, s.clock⟩
      ∧ (∃ h ∈ (t.router k.val).held, h.packet = p) ∧ OnlyClusters [k.val] s t ∧ ChangesOnly [.clusters, .mesh] s t

/-! ### Device memory (spec/11) -/

/-- A READ changes no byte and is answered with its words, or with its fault (R283, R285, R318). A WRITE of HBM3E or LPDDR5X by a
context whose granules let it puts the bytes that its mask enables, no others, and is acknowledged; one that may not is answered with
the fault and writes nothing (R276, R283, R284). An answer reaches the stream slot that asked; an error answer, or none within 16
beats, 256 for host memory, counted from the beat boundary after the issue (R6), is a memory fault, of a list's fetch too (R284,
R285). -/
def Obligations.RequestsAreAnswered : Prop :=
  (∀ (p : Packet) (s : State),
    Gives (.read p) s fun t =>
      (∃ q, Injected q t ∧ q.dest = p.src ∧ q.tag = p.tag ∧ (q.opcode = 3 ∨ q.opcode = 5))
      ∧ (∀ b, t.memByte b = s.memByte b)
      ∧ (∀ pkg loc, placeOf (p.addr.toNat / 32 * 32) = .lpddr pkg loc →
          let a := p.addr.toNat / 32 * 32
          let st := s.memStatus p.ctx.toNat a false
          (st ≠ 0 → Injected (answer p 5 st) t)
          ∧ (st = 0 → ∃ q, Injected q t ∧ q.opcode = 3
              ∧ q.data = (upto p.len.toNat).map fun i => (s.mem.word (a + 32 * i)).bits)))
  ∧ (∀ (p : Packet) (s : State) (a : Nat), storeAddr (p.addr.toNat / 32 * 32) = some a → MemoryInv s →
    let st := s.memStatus p.ctx.toNat (p.addr.toNat / 32 * 32) true
    let lets := fun (i : Nat) => match p.mask with | some m => m.getLsbD i | none => true
    Gives (.write p) s fun t =>
      (st ≠ 0 → Injected (answer p 5 st) t ∧ t.mem = s.mem)
      ∧ (st = 0 → Injected (answer p 4 0) t
          ∧ (∀ i, i < 32 * p.data.length → t.memByte (a + i) =
              if lets i then BitVec.ofNat 8 ((p.data.getD (i / 32) 0).toNat / 2 ^ (8 * (i % 32))) else s.memByte (a + i))
          ∧ ∀ b, b < a ∨ a + 32 * p.data.length ≤ b → t.memByte b = s.memByte b))
  ∧ (∀ (p : Packet) (s : State) (o : Outstanding), epKind p.dest = 0 →
    let k := epNumber p.dest
    let u := s.receive p
    s.outstandingOf k 0 p.tag = some o →
    (o.isWrite = false → (s.cl k).stopped = false →
      Gives (.readData p) s fun t => SMap.get? ((t.cl k).slot o.slot).landed o.piece = some (o.addr, wordsOf p))
    ∧ (o.isWrite = true →
      Gives (.writeAck p) s fun t => SMap.get? ((t.cl k).slot o.slot).landed o.piece = some (o.addr, []))
    ∧ Gives (.error p) s fun t =>
      (t.cl k).outstanding = listErase (s.cl k).outstanding o ∧ ((t.cl k).slot o.slot).failed = true
      ∧ (t.page (pgStream k)).err
        = ((u.page (pgStream k)).report u.clock 2 p.status.toNat (o.slot * 4096 + o.addr % 4096)).err
      ∧ t.counterOf (pgStream k) 5 = u.counterOf (pgStream k) 5 + 1 ∧ OnlyClusters [k] s t)
  ∧ (∀ (k : Cl) (u : Fin 8) (tag : BitVec 10) (s : State),
    (u.val = 4 → ∀ o, firstSome (fun (o : StitchOut) => o.tag == tag.toNat) (s.cl k.val).stitchOut = some o →
      let v := s.reachClock (s.limitAt o.sent 4096 16)
      Gives (.requestTimeout k (.request u tag)) s fun t =>
        (t.cl k.val).stitchOut = listErase (s.cl k.val).stitchOut o ∧ t.clock = v.clock
        ∧ (t.page (pgClCtrl k.val)).err
          = ((v.page (pgClCtrl k.val)).report v.clock 2 0x85 (5 * 65536 + o.packet.addr.toNat % 4096)).err)
    ∧ (u.val ≠ 4 → ∀ o, s.outstandingOf k.val u.val tag = some o →
      let v := s.reachClock (s.limitAt o.issued 4096 (if o.host then 256 else 16))
      Gives (.requestTimeout k (.request u tag)) s fun t =>
        (t.cl k.val).outstanding = listErase (s.cl k.val).outstanding o ∧ ((t.cl k.val).slot o.slot).failed = true
        ∧ t.clock = v.clock
        ∧ (t.page (pgStream k.val)).err = ((v.page (pgStream k.val)).report v.clock 2 0x85 (o.slot * 4096 + o.addr % 4096)).err))
  ∧ ∀ (k : Cl) (l : Fin 3) (s : State),
    let x := (s.cl k.val).list l.val
    let a := x.addr + x.pos
    let v := s.reachClock (s.limitAt s.clock 4096 (if bitAt a 47 then 256 else 16))
    (s.cl k.val).stopped = false → x.ended = false → (l.val = 1 → (s.cl k.val).stitchDesc = none) →
    Gives (.requestTimeout k (.list l)) s fun t =>
      t.clock = v.clock ∧ ((t.cl k.val).list l.val).ended = true
      ∧ (t.page (pgClCtrl k.val)).err = ((v.page (pgClCtrl k.val)).report v.clock 2 0x85 (7 * 65536 + a % 4096)).err

/-- A granule entry is written (R277); a probe gives the number of lines of its granules that the reuse cache holds (R280); keep marks
are cleared (R279); a scrubber goes on to its next chunk and counts it, and poisons the uncorrectable words that it finds there (R305,
R306); the audit reports the scrubbers that are behind (R483).
None of them changes a byte of memory. -/
def Obligations.MemoryIsKept : Prop :=
  (∀ (req : Req) (io : Bool) (d : Fin 8) (value : W32) (s : State), (io = true → d.val < 2) →
    let n := if io then pgIoDie d.val else pgMsd d.val
    s.pageOpen req n = true →
    let i := s.regOf n 0x80
    let g := if io then 524288 + 262144 * d.val + i else 55296 * d.val + i
    Gives (.granuleWrite req io d value) s fun t =>
      SMap.getD t.mem.granules g 0 = BitVec.ofNat 8 value.toNat
      ∧ (∀ h, h ≠ g → SMap.getD t.mem.granules h 0 = SMap.getD s.mem.granules h 0)
      ∧ t.mem.bytes = s.mem.bytes ∧ ChangesOnly [.mem] s t)
  ∧ (∀ (req : Req) (d : Fin 8) (s : State), s.pageOpen req (pgReuse d.val) = true →
    (Gives (.rcProbe req d) s fun t =>
      t.mem.probing.contains d.val = true ∧ bitAt (t.regOf (pgReuse d.val) 0x48) 31 = false ∧ t.mem.bytes = s.mem.bytes
      ∧ ChangesOnly [.pages, .mem] s t)
    ∧ Gives (.keepClear req d) s fun t =>
      (∀ c ∈ SMap.getD t.mem.cache d.val [], c.keep = false)
      ∧ (SMap.getD t.mem.cache d.val []).map (fun c => (c.stack, c.line, c.sectors, c.dirty))
        = (SMap.getD s.mem.cache d.val []).map (fun c => (c.stack, c.line, c.sectors, c.dirty))
      ∧ (∀ e, e ≠ d.val → SMap.getD t.mem.cache e [] = SMap.getD s.mem.cache e []) ∧ t.mem.bytes = s.mem.bytes
      ∧ ChangesOnly [.mem] s t)
  ∧ (∀ (d : Fin 8) (s : State), s.mem.probing.contains d.val = true →
    let w := s.regOf (pgReuse d.val) 0x44
    Gives (.rcProbeDone d) s fun t =>
      t.mem = { s.mem with probing := listErase s.mem.probing d.val }
      ∧ t.regOf (pgReuse d.val) 0x48 = 2 ^ 31 + s.mem.probe d.val (field w 15 0) (field w 31 16) % 2 ^ 19
      ∧ OnlyPages [pgReuse d.val] s t ∧ ChangesOnly [.pages, .mem] s t)
  ∧ (∀ (d : Fin 8) (u : Fin 4) (found : List (BitVec 35 × Bool)) (s : State), s.regOf (pgScrub d.val) 0x40 ≠ 0 → s.ready.msd.contains d.val = true →
    let i := 4 * d.val + u.val
    let pos := SMap.getD s.mem.scrubPos i 0
    Gives (.scrubChunk d u found) s fun t =>
      SMap.getD t.mem.scrubPos i 0 = (if pos + 1 = scrubLength u.val then 0 else pos + 1)
      ∧ SMap.getD t.mem.scrubbed i 0 = SMap.getD s.mem.scrubbed i 0 + 1
      ∧ (u.val < 3 → t.counterOf (pgScrub d.val) 0 = s.counterOf (pgScrub d.val) 0 + 1) ∧ t.mem.bytes = s.mem.bytes
      ∧ (∀ x ∈ found, ∀ stack loc, placeOf (32 * x.1.toNat) = .hbm stack loc → inScrub d.val u.val pos x.1.toNat = true → x.2 = true →
          u.val < 3 → t.mem.poisoned (homeOf stack loc / 32) = true)
      ∧ OnlyPages [pgScrub d.val, pgReuse d.val, pgHbm (3 * d.val + u.val)] s t ∧ ChangesOnly [.pages, .mem] s t)
  ∧ ∀ (d : Fin 8) (s : State),
    let u := s.reachBeat (BitVec.ofNat 48 (65536 * (SMap.getD s.mem.audited (64 + d.val) 0 + 1)))
    let n := pgScrub d.val
    let iv := s.regOf n 0x40
    let behind := fun (i : Nat) =>
      iv ≠ 0 ∧ SMap.getD s.mem.scrubbed (4 * d.val + i) 0 - SMap.getD s.mem.audited (4 * d.val + i) 0 < scrubExpected iv / 2
    Gives (.scrubAudit d) s fun t =>
      t.clock = u.clock
      ∧ (∀ i, i < 4 → SMap.getD t.mem.audited (4 * d.val + i) 0 = SMap.getD s.mem.scrubbed (4 * d.val + i) 0)
      ∧ ((∃ i, i < 4 ∧ behind i) → t.latched n 1 = true ∧ errValid (t.page n).err = true)
      ∧ ((∀ i, i < 4 → ¬behind i) → t.pages = u.pages) ∧ t.mem.bytes = s.mem.bytes ∧ OnlyPages [n] u t
      ∧ ChangesOnly [.pages, .mem] u t

/-! ### Work lists, streams, Lacing, the Awl and the finishing engines (spec/10, spec/11, spec/12) -/

/-- A good record of the work list goes to the queue of its engine (R286, R287). A stream descriptor enters its slot and starts when its
count is reached, and is refused where its checks fail (R288, R294). A token of a LOAD_Q is delivered against a credit (R292), a placed
message leaves its slot as writes of up to 4 rows (R319), and a finished slot ends its descriptor (R295). -/
def Obligations.ListsFeedStreams : Prop :=
  (∀ (k : Cl) (s : State) (len : Nat),
    let c := s.cl k.val
    let l := c.work
    let h := s.fetchBytes (s.taskCtx k.val) 0 (l.addr + l.pos) 8
    let w := ofBytes (h.bytes.map (·.1))
    let kind := field w 63 60
    let fe := field w 59 58
    let f := s.fetchBytes (s.taskCtx k.val) 0 (l.addr + l.pos) len
    let d : PendingDesc := { bits := BitVec.ofNat 2048 (ofBytes ((f.bytes.drop 8).map (·.1))), record := l.record, offset := l.pos,
                             signal := if bitAt w 48 then some (field w 47 42) else none }
    c.stopped = false → l.ended = false → l.pos + 8 ≤ l.len → h.status = 0 → h.bytes.any (·.2) = false →
    recordBytes kind = some len → 8 * field w 57 50 = len → field w 41 0 = 0 → l.pos + len ≤ l.len →
    (bitAt w 49 = true → (upto l.record).all c.doneRecords.contains = true) → c.hasPlace kind fe = true →
    f.status = 0 → f.bytes.any (·.2) = false →
    Gives (.recordDispatch k) s fun t =>
      (t.cl k.val).work = { l with pos := l.pos + len, record := l.record + 1, ended := kind == 6 }
      ∧ (kind = 1 → (t.cl k.val).stream.queue = c.stream.queue ++ [d])
      ∧ (kind = 2 → (t.cl k.val).awl.queue = c.awl.queue ++ [d])
      ∧ (kind = 3 → (SMap.getD (t.cl k.val).fes fe {}).queue = (SMap.getD c.fes fe {}).queue ++ [d])
      ∧ (kind = 4 → (t.cl k.val).fillCopy = c.fillCopy ++ [d])
      ∧ (kind = 5 → (t.cl k.val).lacing.queue = c.lacing.queue ++ [d])
      ∧ (kind = 6 → (t.cl k.val).doneRecords = l.record :: c.doneRecords) ∧ OnlyClusters [k.val] s t)
  ∧ (∀ (k : Cl) (s : State) (d : PendingDesc) (rest : List PendingDesc),
    let c := s.cl k.val
    let w := d.bits.toNat
    let i := sdSlot w
    s.halts k.val = false → c.readySlot = none → c.stream.queue = d :: rest →
    (c.streamOk w = false → Gives (.streamStart k) s fun t =>
      (t.cl k.val).stream = { c.stream with queue := rest } ∧ OnlyClusters [k.val] s t)
    ∧ (c.streamOk w = true → (c.slot i).desc = none →
        c.waitMet (sdWaitEn w) (sdWaitHandle w) (sdWaitCount w) = false →
        Gives (.streamStart k) s fun t =>
          (t.cl k.val).stream.queue = rest ∧ (t.cl k.val).slot i =
            { census := (c.slot i).census, desc := some d, op := sdOp w,
              share := if sdOp w = 2 then some (sdQCore w, sdQueue w, sdFold w) else none }
          ∧ (∀ j, j ≠ i → (t.cl k.val).slot j = c.slot j) ∧ OnlyClusters [k.val] s t)
    ∧ (c.streamOk w = true → (c.slot i).desc = none →
        c.waitMet (sdWaitEn w) (sdWaitHandle w) (sdWaitCount w) = true →
        Gives (.streamStart k) s fun t =>
          (t.cl k.val).stream.queue = rest ∧ ((t.cl k.val).slot i).desc = some d ∧ ((t.cl k.val).slot i).started = true))
  ∧ (∀ (k : Cl) (i : Fin 16) (s : State) (tok : Token) (rest : List Token) (n q f : Nat),
    let x := (s.cl k.val).slot i.val
    let core := (s.core k.val n).settleSlack s.clock
    let w := core.word tok.fold.toNat
    x.tokens = tok :: rest → x.share = some (n, q, f) → x.credit ≠ 0 → s.halts k.val = false → cwValid w = true →
    SMap.get? core.closed (pairKey q tok.fold.toNat) = none → core.hasPath q tok.fold.toNat = false →
    core.held q tok.fold.toNat < cwCred w q →
    Gives (.loadQToken k i) s fun t =>
      let y := (t.cl k.val).slot i.val
      y.tokens = rest ∧ y.credit = x.credit - 1 ∧ y.delivered = x.delivered + 1
      ∧ (t.core k.val n).queue q = withArrival (core.queue q) ⟨tok, s.clock, 0⟩
      ∧ t.counterOf (pgStream k.val) 4 = s.counterOf (pgStream k.val) 4 + 1 ∧ OnlyClusters [k.val] s t
      ∧ ChangesOnly [.pages, .clusters] s t)
  ∧ (∀ (p q : Packet) (s : State) (i : Nat),
    let k := epNumber p.dest
    let x := (s.cl k).slot i
    (s.cl k).postSlot p.tag = some i → x.post = some q → x.failed = false →
    Gives (.ringPlace p) s fun t =>
      let y := (t.cl k).slot i
      y.post = none ∧ y.message = [] ∧ y.desc = x.desc
      ∧ y.pieces = (postPieces (p.addr.toNat + 512 * p.placeRow.toNat) x.message).length
      ∧ (i < 16 → (s.cl k).outstanding = [] → s.halts k = false → (∀ j, j ≠ i → ((s.cl k).slot j).todo = []) →
          ∀ z zs, postPieces (p.addr.toNat + 512 * p.placeRow.toNat) x.message = z :: zs → z.addr + z.len ≤ 2 ^ 48 →
          (memEndpoint z.addr).isSome = true → ∃ o ∈ (t.cl k).outstanding, o.slot = i ∧ o.addr = z.addr ∧ o.isWrite = !sdLoads x.word)
      ∧ OnlyClusters [k] s t)
  ∧ ∀ (k : Cl) (i : Fin 16) (s : State) (d : PendingDesc),
    let x := (s.cl k.val).slot i.val
    x.desc = some d → x.started = true → x.failed = false → x.finished = true → x.todo = [] → x.tokens = [] →
    (s.cl k.val).stopped = false → (s.cl k.val).outstanding = [] →
    Gives (.streamDone k i) s fun t =>
      ((t.cl k.val).slot i.val).desc = none ∧ t.latched (pgStream k.val) 1 = true
      ∧ (d.poster = none → (t.cl k.val).doneRecords = d.record :: (s.cl k.val).doneRecords) ∧ OnlyClusters [k.val] s t

/-- A TAP whose next row has arrived writes it where it is kept, and a SOURCE sends the next row, a token on each line in each of its
phases (R300 to R302). A gather writes the rows that it has assembled; an index outside its bound is event 1, and ends the task unless it
reads as zero (R242, R243). A finishing engine's descriptor makes its reads, runs, and is done when it has written (R249). -/
def Obligations.EnginesMoveRows : Prop :=
  (∀ (k : Cl) (n : Fin 2) (s : State) (r : LacingRun), SMap.get? (s.cl k.val).lacing.active n.val = some r →
    lcOp r.bits = 1 → r.rowHere = true →
    let c := s.cl k.val
    let at_ := (c.handle (lcHandle r.bits)).baseRow + (lcRow0 r.bits + (r.row - lcFirst r.bits))
    Gives (.tap k n) s fun t =>
      (lcKeeps r.bits r.row = true → (t.cl k.val).row k.val at_ = r.rowOfTokens)
      ∧ (∀ m, (lcKeeps r.bits r.row = false ∨ m ≠ at_) → (t.cl k.val).row k.val m = c.row k.val m)
      ∧ (lcTotal r.bits ≤ r.row + 1 → SMap.get? (t.cl k.val).lacing.active n.val = none)
      ∧ (r.row + 1 < lcTotal r.bits →
          ∃ r', SMap.get? (t.cl k.val).lacing.active n.val = some r' ∧ r'.desc = r.desc ∧ r'.row = r.row + 1)
      ∧ t.clock = s.clock)
  ∧ (∀ (k : Cl) (n : Fin 2) (s : State) (r : LacingRun), SMap.get? (s.cl k.val).lacing.active n.val = some r →
    lcOp r.bits = 2 → s.halts k.val = false →
    (s.cl k.val).waitMet (lcPace r.bits) (lcHandle r.bits) (lcRow0 r.bits + r.row + 1) = true →
    (∀ j, j < lcLines r.bits →
      SMap.getD r.arrived j 0 = r.row * lcPerRow r.bits ∧ lcPerRow r.bits ≤ SMap.getD r.credit j 0) →
    Gives (.source k n) s fun t =>
      (lcTotal r.bits ≤ r.row + 1 → SMap.get? (t.cl k.val).lacing.active n.val = none)
      ∧ (r.row + 1 < lcTotal r.bits → ∃ r', SMap.get? (t.cl k.val).lacing.active n.val = some r' ∧ r'.row = r.row + 1
          ∧ ∀ j, j < lcLines r.bits → SMap.getD r'.arrived j 0 = (r.row + 1) * lcPerRow r.bits
              ∧ SMap.getD r'.credit j 0 = SMap.getD r.credit j 0 - lcPerRow r.bits)
      ∧ ∀ m, (t.cl k.val).row k.val m = (s.cl k.val).row k.val m)
  ∧ (∀ (k : Cl) (s : State) (d : PendingDesc) (rest : List PendingDesc),
    let c := s.cl k.val
    let w := d.bits.toNat
    let n := pgAwl k.val
    let g := (s.popAwl k.val).gathered k.val w none
    let rows := rowsOfPairs g.bytes g.stop.isSome
    let base := (c.handle (awDst w)).baseRow + awDstRow w
    c.awl.queue = d :: rest → s.halts k.val = false → c.awlOk w = true →
    c.waitMet (awWaitEn w) (awWaitHandle w) (awWaitCount w) = true →
    Gives (.gather k) s fun t =>
      (t.cl k.val).awl.queue = (if g.stop.isSome then [] else rest)
      ∧ (∀ j, j < rows.length → (t.cl k.val).row k.val (base + j) = rows.getD j {})
      ∧ (∀ m, m < base ∨ base + rows.length ≤ m → (t.cl k.val).row k.val m = c.row k.val m)
      ∧ (0 < g.oob → t.latched n 1 = true) ∧ (g.stop = none → t.latched n 2 = true)
      ∧ (g.stop = none → d.poster = none → (t.cl k.val).doneRecords = d.record :: c.doneRecords))
  ∧ (∀ (k : Cl) (e : Fin 4) (s : State) (d : PendingDesc) (rest : List PendingDesc),
    let c := s.cl k.val
    let w := d.bits.toNat
    let f := SMap.getD c.fes e.val {}
    let r := c.feRun k.val e.val w
    f.queue = d :: rest → s.halts k.val = false →
    (c.feOk w = false → Gives (.feDescriptorStart k e) s fun t =>
      SMap.getD (t.cl k.val).fes e.val {} = { f with queue := rest, headAt := s.clock } ∧ OnlyClusters [k.val] s t)
    ∧ (c.feOk w = true → c.waitMet (feWaitEn w) (feWaitHandle w) (feWaitCount w) = true → c.tilesMet e.val w = true →
        r.census.abort = none →
        Gives (.feDescriptorStart k e) s fun t =>
          (SMap.getD (t.cl k.val).fes e.val {}).queue = rest
          ∧ (SMap.getD (t.cl k.val).fes e.val {}).running = f.running ++ [⟨d, r.outs⟩]
          ∧ t.counterOf (pgFe k.val e.val) 1 = s.counterOf (pgFe k.val e.val) 1 + BitVec.ofNat 64 r.vectors
          ∧ (∀ m, (t.cl k.val).row k.val m = c.row k.val m) ∧ OnlyClusters [k.val] s t))
  ∧ ∀ (k : Cl) (e : Fin 4) (s : State) (r : FeRun) (rest : List FeRun),
    (SMap.getD (s.cl k.val).fes e.val {}).running = r :: rest →
    Gives (.feDescriptorDone k e) s fun t =>
      (SMap.getD (t.cl k.val).fes e.val {}).running = rest ∧ t.latched (pgFe k.val e.val) 1 = true
      ∧ (r.desc.poster = none → (t.cl k.val).doneRecords = r.desc.record :: (s.cl k.val).doneRecords)

/-! ### Register packets and mirrors (spec/02, R317) -/

/-- REG_READ answers with the register's word, REG_WRITE writes its data word 0, once the packet has arrived (R317; the fields are the
model's choice, log 29). A refresh copies a management page's status to its mirror, that of a page in reset as zeros (R22, R33, R47). -/
def Obligations.RegisterPacketsAndMirrors : Prop :=
  (∀ (p : Packet) (s : State), accessOk (regAddr p) 4 = true →
    Gives (.regRead p) s fun t =>
      let u := s.receive p
      ∃ q, Injected q t ∧ q.opcode = 0x32 ∧ q.dest = p.src ∧ q.tag = p.tag
        ∧ q.data = [BitVec.ofNat 256 (u.readReg (requesterOf p) (regAddr p / 4096) (regAddr p % 4096) % 2 ^ 32)])
  ∧ (∀ (p : Packet) (s : State) (n : Nat), regAddr p = 4096 * n + 0x14 →
    let u := s.receive p
    u.eventOpen (requesterOf p) n = true →
    Gives (.regWrite p) s fun t =>
      t.page n = { u.page n with enable := BitVec.ofNat 32 (p.data.headD 0).toNat } ∧ OnlyPages [n] u t
      ∧ ChangesOnly [.pages, .irq] u t)
  ∧ ∀ s : State,
    Gives .mirrorRefresh s fun t =>
      (∀ n ∈ mirroredPages, (t.page n).mirror.drop 1 =
          (if (s.page n).inReset = true then [0, 0, 0, 0]
           else [s.levelRead n, s.latchRead n, (s.page n).err, if s.latchRead n &&& (s.page n).enable ≠ 0 then 1 else 0])
        ∧ { t.page n with mirror := [] } = { s.page n with mirror := [] })
      ∧ OnlyPages mirroredPages s t ∧ ChangesOnly [.pages, .irq] s t

/-! ### Cinches (spec/13) -/

/-- At a unit, a request takes effect 8 cycles after its tail and 2 after the one before it, and one that is not the unit's next waits
(R337). ADD and SET give a mapped cinch its new value, READ leaves it, and each is answered; an unmapped one is NOT_MAPPED, and a reserved
encoding is refused (R333, R335). A watch is registered, or woken at once; a cancel takes watches away (R335, R339, R340). An arrival is
counted, and the last one releases the clusters that arrived (R348). An entry of the translation table is written unless its context runs (R334), and a retarget
moves the watches of one core to another (R344). -/
def Obligations.CinchUnitsAnswer : Prop :=
  (∀ (c : Instr) (p : Packet) (s : State) (n : Nat),
    let w := cpWord p
    let u := unitOf (cpVid w)
    let x := s.cinchUnit u
    x.physical p.ctx.toNat (cpVid w) = some n →
    let v := if c = .cinchAdd p then x.value n + BitVec.ofNat 64 (cpOperand w)
             else if c = .cinchSet p then BitVec.ofNat 64 (cpOperand w) else x.value n
    let poison := if c = .cinchSet p then false else x.poisoned n
    c = .cinchAdd p ∨ c = .cinchSet p ∨ c = .cinchRead p → s.cinchTurn p = true →
    Gives c s fun t =>
      t.clock = max s.clock (s.cinchTime p u) ∧ (t.cinchUnit u).value n = v ∧ (t.cinchUnit u).poisoned n = poison
      ∧ (∀ m, m ≠ n → (t.cinchUnit u).value m = x.value m) ∧ (∀ m, m ≠ u → t.cinchUnit m = s.cinchUnit m)
      ∧ t.counterOf (pgCinch u) 0 = (s.takeCinch p u).counterOf (pgCinch u) 0 + 1
      ∧ (x.watches = [] → Injected (respond p 0 v poison 0) t) ∧ ChangesOnly (timeParts ++ [.mesh, .cinch, .wakes]) s t)
  ∧ (∀ (c : Instr) (p : Packet) (s : State), s.cinchTurn p = false →
    c = .cinchAdd p ∨ c = .cinchSet p ∨ c = .cinchRead p ∨ c = .cinchWatch p ∨ c = .cinchCancel p ∨ c = .cinchArrive p →
    exec c s = .next s)
  ∧ (∀ (c : Instr) (p : Packet) (s : State), s.cinchTurn p = true →
    (c = .cinchWatch p ∧ watchTargetOk p = false) ∨ (c = .cinchArrive p ∧ cpOperand (cpWord p) % 65536 = 0) →
    Gives c s fun t => Injected (respond p 3 0 false 0) t ∧ ChangesOnly (timeParts ++ [.mesh]) s t)
  ∧ (∀ (c : Instr) (p : Packet) (s : State),
    let w := cpWord p
    let u := unitOf (cpVid w)
    (s.cinchUnit u).physical p.ctx.toNat (cpVid w) = none →
    c = .cinchAdd p ∨ c = .cinchSet p ∨ c = .cinchRead p ∨ c = .cinchCancel p ∨ (c = .cinchWatch p ∧ watchTargetOk p = true)
      ∨ (c = .cinchArrive p ∧ cpOperand w % 65536 ≠ 0) →
    s.cinchTurn p = true →
    Gives c s fun t =>
      Injected (respond p 1 0 false 0) t ∧ t.counterOf (pgCinch u) 5 = (s.takeCinch p u).counterOf (pgCinch u) 5 + 1
      ∧ ChangesOnly (timeParts ++ [.mesh]) s t)
  ∧ (∀ (p : Packet) (s : State) (n : Nat),
    let w := cpWord p
    let u := unitOf (cpVid w)
    let x := s.cinchUnit u
    let new : CinchWatch :=
      { ctx := p.ctx.toNat, vid := cpVid w, cond := cpCond w, comparand := BitVec.ofNat 64 (cpOperand w), src := p.src,
        smod := p.smod, wkind := cpKind w, wtarget := cpTarget w, cookie := BitVec.ofNat 32 (cpCookie w), gate := cpGate w }
    let v := s.takeCinch p u
    s.cinchTurn p = true → watchTargetOk p = true → x.physical p.ctx.toNat (cpVid w) = some n →
      (8192 ≤ x.watches.length → Gives (.cinchWatch p) s fun t =>
        t.cinch = s.cinch ∧ Injected (respond p 2 (x.value n) (x.poisoned n) 0) t ∧ t.latched (pgCinch u) 1 = true
        ∧ t.counterOf (pgCinch u) 4 = v.counterOf (pgCinch u) 4 + 1)
      ∧ (x.watches = [] → x.poisoned n = false → condHolds (cpCond w) (x.value n) (BitVec.ofNat 64 (cpOperand w)) = false →
        Gives (.cinchWatch p) s fun t =>
          (t.cinchUnit u).watches = [new] ∧ Injected (respond p 0 (x.value n) false 0) t
          ∧ t.counterOf (pgCinch u) 1 = v.counterOf (pgCinch u) 1 + 1)
      ∧ (x.watches = [] → x.poisoned n = false → condHolds (cpCond w) (x.value n) (BitVec.ofNat 64 (cpOperand w)) = true →
        cpKind w ≠ 2 →
        Gives (.cinchWatch p) s fun t =>
          (t.cinchUnit u).watches = [] ∧ Injected (s.wakePacket u new (x.value n) false) t
          ∧ t.counterOf (pgCinch u) 2 = v.counterOf (pgCinch u) 2 + 1))
  ∧ (∀ (p : Packet) (s : State) (n : Nat),
    let w := cpWord p
    let u := unitOf (cpVid w)
    let x := s.cinchUnit u
    let gone := fun (y : CinchWatch) => y.ctx = p.ctx.toNat ∧ y.vid = cpVid w ∧ y.src = p.src ∧ y.smod = p.smod
      ∧ (cpCookie w = 0 ∨ y.cookie.toNat = cpCookie w)
    let z := s.takeCinch p u
    x.physical p.ctx.toNat (cpVid w) = some n → s.cinchTurn p = true →
    (Gives (.cinchCancel p) s fun t =>
      (∀ y ∈ (t.cinchUnit u).watches, ¬gone y ∧ y ∈ x.watches) ∧ (t.cinchUnit u).values = x.values
      ∧ ((∀ y ∈ x.watches, gone y) → Injected (respond p 0 (x.value n) (x.poisoned n) 0) t)
      ∧ t.counterOf (pgCinch u) 6 = z.counterOf (pgCinch u) 6 + BitVec.ofNat 64 (x.watches.filter (fun y => decide (gone y))).length)
    ∧ let parties := cpOperand w % 65536
      let v := (x.value n + 1).toNat
      let gen := generation v parties
      let mine := fun (b : BarrierEntry) => b.cinch = n ∧ b.gen.toNat = gen
      (parties ≠ 0 → v % parties ≠ 0 → x.barriers.length < 256 → Gives (.cinchArrive p) s fun t =>
        (t.cinchUnit u).value n = x.value n + 1
        ∧ (∃ b ∈ (t.cinchUnit u).barriers, mine b ∧ (epKind p.src = 0 → epNumber p.src ∈ b.arrived))
        ∧ (x.watches = [] → Injected (respond p 0 (x.value n + 1) (x.poisoned n) (gen % 65536)) t))
      ∧ (parties ≠ 0 → v % parties = 0 → Gives (.cinchArrive p) s fun t =>
        (t.cinchUnit u).value n = x.value n + 1 ∧ (∀ b ∈ (t.cinchUnit u).barriers, ¬mine b)
        ∧ (x.barriers = [] → epKind p.src = 0 →
            Injected (s.releasePacket u p.ctx.toNat (cpVid w) gen (epNumber p.src)) t
            ∧ t.counterOf (pgCinch u) 3 = z.counterOf (pgCinch u) 3 + 1))
      ∧ (parties ≠ 0 → v % parties ≠ 0 → 256 ≤ x.barriers.length → (∀ b ∈ x.barriers, ¬mine b) → Gives (.cinchArrive p) s fun t =>
        t.cinch = s.cinch ∧ Injected (respond p 2 (x.value n) (x.poisoned n) 0) t
        ∧ t.counterOf (pgCinch u) 4 = z.counterOf (pgCinch u) 4 + 1))
  ∧ (∀ (req : Req) (u : Fin 2) (value : W32) (s : State), s.pageOpen req (pgCinch u.val) = true →
    let n := pgCinch u.val
    let i := s.regOf n 0x40
    let x := s.cinchUnit u.val
    let twice := bitAt value.toNat 31 = true ∧ x.xlt.any (fun e =>
      e.1 != i && bitAt e.2.toNat 31 && field e.2.toNat 10 0 == field value.toNat 10 0) = true
    (Gives (.xltWrite req u value) s fun t =>
      (s.ctxRuns (i / 128) = true → t.cinch = s.cinch ∧ t.counterOf n 7 = s.counterOf n 7 + 1)
      ∧ (s.ctxRuns (i / 128) = false → twice → t.cinch = s.cinch ∧ t.latched n 2 = true)
      ∧ (s.ctxRuns (i / 128) = false → ¬twice →
          SMap.getD (t.cinchUnit u.val).xlt i 0 = value &&& 0x800007FF#32
          ∧ ∀ j, j ≠ i → SMap.getD (t.cinchUnit u.val).xlt j 0 = SMap.getD x.xlt j 0)
      ∧ ChangesOnly [.pages, .cinch] s t)
    ∧ Gives (.wakeRetarget req u value) s fun t =>
      (t.cinchUnit u.val).busy = true ∧ t.regOf n 0x4C = value.toNat % 256 ∧ ChangesOnly [.pages, .cinch] s t)
  ∧ ∀ (u : Fin 2) (s : State), (s.cinchUnit u.val).busy = true → (s.cinchUnit u.val).held = [] →
    let w := s.regOf (pgCinch u.val) 0x4C
    Gives (.wakeRetargetDone u) s fun t =>
      (t.cinchUnit u.val).busy = false
      ∧ (t.cinchUnit u.val).watches = (s.cinchUnit u.val).watches.map (fun x =>
          if x.wkind = 2 ∧ x.wtarget = field w 7 4 then { x with wtarget := field w 3 0 } else x)
      ∧ ChangesOnly [.cinch] s t

/-- At a cluster: the next entry of the cinch list sends its packet (R346); its answer ends it, gives its signal and enters a barrier's
waiter, or has it presented again at the next beat (R346, R349). A wake for a watched VID is held until it is written, where the core is
ungated with it (R340 to R342, R347); a release frees the waiters of its generation and those before it (R349). At a dispatch core an
answer ends the command that asked, and a wake is queued (R343, R379). -/
def Obligations.ClustersUseCinches : Prop :=
  (∀ (k : Cl) (s : State),
    let c := s.cl k.val
    let l := c.cinchList
    let f := s.fetchBytes (s.taskCtx k.val) 0 (l.addr + l.pos) 32
    let w := ofBytes (f.bytes.map (·.1))
    l.ended = false → s.halts k.val = false → c.cinchOps.length < 8 → l.pos + 32 ≤ l.len →
    f.status = 0 → f.bytes.any (·.2) = false → f.s.ceOk k.val w = true →
    c.waitMet (bitAt w 251) (field w 250 245) (field w 63 32) = true → (ceOp w ≠ 4 ∨ c.barrierRoom = true) →
    Gives (.cinchListIssue k) s fun t =>
      Injected (f.s.cePacket k.val w c.cinchTag) t
      ∧ (t.cl k.val).cinchOps = c.cinchOps ++ [⟨c.cinchTag, BitVec.ofNat 256 w, l.pos, s.beat⟩]
      ∧ (t.cl k.val).cinchList.pos = l.pos + 32 ∧ (ceOp w = 3 → (t.cl k.val).watchedVids.contains (ceVid w) = true)
      ∧ OnlyClusters [k.val] s t)
  ∧ (∀ (p : Packet) (s : State) (o : CinchOp), epKind p.dest = 0 →
    let k := epNumber p.dest
    let u := s.receive p
    let st := cpStatus (cpWord p)
    let w := o.entry.toNat
    firstSome (fun o => o.tag == p.tag.toNat) (s.cl k).cinchOps = some o →
    Gives (.cinchResp p) s fun t =>
      (st = 2 → (t.cl k).retries = (s.cl k).retries ++ [(s.cePacket k w o.tag, u.beats + 1)]
        ∧ (t.cl k).cinchOps = (s.cl k).cinchOps)
      ∧ (st ≠ 2 → (t.cl k).cinchOps = listErase (s.cl k).cinchOps o)
      ∧ (st = 0 → ceOp w = 4 → (t.cl k).barriers.length = (s.cl k).barriers.length + 1
          ∧ ∃ b ∈ (t.cl k).barriers, b.vid = ceVid w ∧ b.gen = cpGen (cpWord p))
      ∧ (st = 0 → bitAt w 244 = true → (t.cl k).arrival (field w 243 238) = (s.cl k).arrival (field w 243 238) + 1)
      ∧ (st ≠ 0 → st ≠ 2 → (t.cl k).cinchList.ended = true) ∧ OnlyClusters [k] s t)
  ∧ (∀ (p : Packet) (s : State) (c : Command), epKind p.dest = 2 →
    let x := p.ctx.toNat
    let tag := p.tag.toNat
    firstSome (answersTag x tag) (s.ctx x).inProgress = some c →
    ((s.ctx x).command c.seq).isSome = true →
    Gives (.cinchResp p) s fun t =>
      (cpStatus (cpWord p) = 1 → ∃ st, Answered x c.seq st 0 s t)
      ∧ (cpStatus (cpWord p) = 0 → dOp c.desc.toNat ≠ 8 →
          Answered x c.seq 0 (cpValue (cpWord p) + ofBool (p.wordPoison.getLsbD 0) <<< 64) s t)
      ∧ t.clusters = s.clusters)
  ∧ (∀ (p : Packet) (s : State),
    let w := cpWord p
    let k := epNumber p.dest
    let t := cpTarget w % 16
    (cpKind w = 0 → Gives (.cinchWake p) s fun v =>
      (s.taskRuns k = true → (s.cl k).watchedVids.contains (cpVid w) = true → (s.cl k).heldWakes.length < 32 →
        (v.cl k).heldWakes = (s.cl k).heldWakes ++ [⟨wtCore (cpTarget w), wtQueue (cpTarget w),
          wakeToken (cpValue w % 2 ^ 32) (wtFold (cpTarget w)) true (p.wordPoison.getLsbD 0), cpGate w, v.clock⟩])
      ∧ (s.taskRuns k = false ∨ (s.cl k).watchedVids.contains (cpVid w) = false →
          v.clusters = s.clusters ∧ v.counterOf (pgClCtrl k) 56 = (s.receive p).counterOf (pgClCtrl k) 56 + 1)
      ∧ (s.taskRuns k = true → (s.cl k).watchedVids.contains (cpVid w) = true → 32 ≤ (s.cl k).heldWakes.length → v = s)
      ∧ OnlyClusters [k] s v)
    ∧ (cpKind w = 2 → Gives (.cinchWake p) s fun v =>
      (v.wakeQueue t).records = (s.wakeQueue t).records
        ++ [⟨BitVec.ofNat 32 (cpCookie w), BitVec.ofNat 12 (cpVid w), BitVec.ofNat 64 (cpValue w), p.wordPoison.getLsbD 0⟩]
      ∧ (∀ d, d ≠ t → v.wakeQueue d = s.wakeQueue d) ∧ ChangesOnly (timeParts ++ [.mesh, .wakes]) s v))
  ∧ (∀ (k : Cl) (s : State) (h : HeldWake),
    (s.cl k.val).nextWake s.clock = some h →
    let f := h.tok.fold.toNat
    let u := s.reachClock h.ready
    let core := (u.core k.val h.core).settleSlack u.clock
    Gives (.wakeTokenWrite k) s fun t =>
      t.clock = max s.clock h.ready ∧ (t.cl k.val).heldWakes = listErase (s.cl k.val).heldWakes h
      ∧ (t.core k.val h.core).gates = (if h.gates then core.gates - 1 else core.gates)
      ∧ (cwValid (core.word f) = true → cwCred (core.word f) h.queue ≠ 0 → SMap.get? core.closed (pairKey h.queue f) = none →
          core.hasPath h.queue f = false →
          (t.core k.val h.core).queue h.queue = withArrival (core.queue h.queue) ⟨h.tok, u.clock, 0⟩)
      ∧ OnlyClusters [k.val] s t)
  ∧ (∀ (p : Packet) (s : State),
    let k := epNumber p.dest
    let w := cpWord p
    let freed := fun (b : BarrierWaiter) => b.vid = cpVid w ∧ (cpGen w + 65536 - b.gen) % 65536 < 32768
    Gives (.barrierRelease p) s fun t =>
      (s.taskRuns k = false →
          t.clusters = s.clusters ∧ t.counterOf (pgClCtrl k) 56 = (s.receive p).counterOf (pgClCtrl k) 56 + 1)
      ∧ (s.taskRuns k = true →
          (t.cl k).barriers = (s.cl k).barriers.filter (fun b => !decide (freed b))
          ∧ (t.cl k).heldWakes.length = (s.cl k).heldWakes.length
              + ((s.cl k).barriers.filter fun b => decide (freed b) && b.kind == 0).length
          ∧ ∀ h ∈ (t.cl k).heldWakes, h ∈ (s.cl k).heldWakes ∨ t.clock < h.ready)
      ∧ OnlyClusters [k] s t)
  ∧ ∀ (k : Cl) (s : State) (p : Packet) (b : Nat) (rest : List (Packet × Nat)), (s.cl k.val).retries = (p, b) :: rest →
    Gives (.retryRepresent k) s fun t =>
      (t.cl k.val).retries = rest ∧ Injected p t ∧ b ≤ t.beats ∧ (b ≤ s.beats → t.clock = s.clock)
      ∧ OnlyClusters [k.val] s t ∧ ChangesOnly (timeParts ++ [.clusters, .mesh]) s t

/-! ### Tasks (spec/15, R378, R386 to R402) -/

/-- RUN_TASK of a LOADED region without a task makes a candidate, which a bad table refuses (R374, R378, R389). The next candidate asks the
Bridle (R394, R401); a grant gives it its start beat, three beats ahead or later, and posts its TASK_START in every cluster's calendar
(R389, R420). A BE task whose request is outstanding gives way to an LC candidate, and a context that holds its tasks keeps them as
candidates (R395, R396). An affinity probe gives its counts for every die (R398). -/
def Obligations.TasksAreGranted : Prop :=
  (∀ (x : Ctx) (seq : W32) (s u : State) (d : Nat), s.startCmd x.val seq 4 = some (d, u) →
    let r := dRegion d
    let g := s.region r
    let refusedWith := fun (n : Nat) (t : State) => Answered x.val seq n ({ status := n } : Ending).imm s t ∧ t.regions = s.regions
    let new : Task :=
      { ctx := x.val, seq := seq, lc := bitAt d 112, peak := field d 143 128, mean := field d 159 144,
        notBefore := BitVec.ofNat 48 (field d 207 160), serve := dServe d, serveArg := BitVec.ofNat 32 (field d 255 224),
        table := dImage d, since := s.beat }
    let v := (u.loseRows g.clusters).modRegion r fun g => { g with task := some new }
    Gives (.runTask x seq) s fun t =>
      (s.owns x.val r = false → refusedWith 2 t)
      ∧ (s.owns x.val r = true → (g.state ≠ .loaded ∨ g.task.isSome = true) → refusedWith 1 t)
      ∧ (s.owns x.val r = true → g.state = .loaded → g.task = none →
          (∀ k ∈ g.clusters, (t.cl k).rows = [] ∧ (t.cl k).rowsFree = some s.freeCount)
          ∧ (dServe d = true → (t.region r).task = some new ∧ (t.ctx x.val).waiting = (s.ctx x.val).waiting)
          ∧ (dServe d = false →
              (∀ w es, v.readTable x.val (dImage d) 0 g.clusters = .good w es →
                (t.region r).task = some { new with entries := es } ∧ (t.ctx x.val).waiting = (s.ctx x.val).waiting)
              ∧ (∀ w e, v.readTable x.val (dImage d) 0 g.clusters = .bad w e →
                (t.region r).task = none ∧ Answered x.val seq e.status e.imm s t))))
  ∧ (∀ (s : State) (r : Nat) (tk : Task), s.bridle.request = none → s.nextCandidate = some (r, tk) → (s.region r).task = some tk →
    let n := s.chunksOf tk
    let w := n * svChunkW tk.serveArg.toNat
    (tk.serve = false → Gives .grantRequest s fun t =>
      (t.region r).task = some { tk with phase := .asked, chunks := 0 }
      ∧ t.bridle.request = some { ctx := tk.ctx, region := r, peak := tk.peak, mean := tk.mean, notBefore := tk.notBefore, lc := tk.lc }
      ∧ (∀ q, q ≠ r → t.region q = s.region q) ∧ ChangesOnly [.regions, .bridle] s t)
    ∧ (tk.serve = true → ∀ v es, s.readTable tk.ctx tk.table n (s.region r).clusters = .good v es → Gives .grantRequest s fun t =>
      (t.region r).task = some { tk with entries := es, phase := .asked, chunks := n }
      ∧ t.bridle.request
        = some { ctx := tk.ctx, region := r, peak := tk.peak + w, mean := tk.mean + w, notBefore := tk.notBefore, lc := tk.lc }))
  ∧ (∀ (s : State) (q : GrantRequest) (tk : Task) (b : BitVec 48), s.bridle.request = some q →
    q.granted = some b ∨ (q.granted = none ∧ s.consider q = .grant b) →
    let g := s.region q.region
    let start := laterBeat (laterBeat b (s.beat + 3#48)) (if q.notBefore = 0 then b else q.notBefore)
    g.task = some tk →
    Gives .grantArrival s fun t =>
      t.bridle.request = none
      ∧ t.region q.region = { g with task := some { tk with phase := .granted, start := start, peak := q.peak, mean := q.mean } }
      ∧ (∀ k ∈ g.clusters, (⟨3, startArg tk, 0, 0, start⟩ : CalEntry) ∈ t.cal (pgClCtrl k))
      ∧ (∀ r, r ≠ q.region → t.region r = s.region r) ∧ t.clock = s.clock)
  ∧ (∀ (s : State) (r : Nat) (tk : Task), (s.region r).task = some tk → tk.started = false → tk.phase = .asked →
    let back := fun (t : State) => ∃ y, (t.region r).task = some y ∧ y.phase = .candidate ∧ y.started = false
    ((s.taskCandidates.any fun p => p.2.lc) = true → tk.lc = false → Gives .beWithdraw s fun t => back t ∧ t.clock = s.clock)
    ∧ ∀ (req : Req) (x : Ctx), s.pageOpen req (pgContext x.val) = true →
      (Gives (.hold req x true) s fun t =>
        bitAt (t.regOf (pgContext x.val) 0xC0) 31 = true ∧ (tk.ctx = x.val → back t) ∧ t.clock = s.clock)
      ∧ Gives (.hold req x false) s fun t =>
        bitAt (t.regOf (pgContext x.val) 0xC0) 31 = false ∧ OnlyPages [pgContext x.val] s t ∧ ChangesOnly [.pages] s t)
  ∧ (∀ (req : Req) (x : Ctx) (s : State), s.pageOpen req (pgContext x.val) = true → (s.ctx x.val).probing = none →
    Gives (.affinityProbe req x) s fun t =>
      let n := pgContext x.val
      t.ctx x.val = { s.ctx x.val with probing := some (s.regOf n 0xD4, s.regOf n 0xD8) } ∧ t.regOf n 0xD0 = 0
      ∧ (∀ y, y ≠ x.val → t.ctx y = s.ctx y) ∧ OnlyPages [n] s t ∧ ChangesOnly [.pages, .host] s t)
  ∧ ∀ (x : Ctx) (s : State) (base len : Nat), (s.ctx x.val).probing = some (base, len) →
    Gives (.affinityProbeDone x) s fun t =>
      let n := pgContext x.val
      (t.ctx x.val).probing = none ∧ t.regOf n 0xD0 = 2 ^ 31
      ∧ (∀ d, d < 8 → t.regOf n (0xE0 + 4 * d) = s.mem.affHome x.val d base len % 2 ^ 32
          ∧ t.regOf n (0x100 + 4 * d) = s.mem.affLines x.val d base len % 2 ^ 32
          ∧ t.regOf n (0x120 + 4 * d) = s.freeOn d % 2 ^ 32)
      ∧ OnlyPages [n] s t ∧ ChangesOnly [.pages, .host] s t

/-- At its start beat a granted task runs: the region is RUNNING, and every cluster has its first fold, no arrivals, and its lists (R378,
R390). It ends with success at the first beat boundary at which its work is done (R392), or early: it stops at the boundary after its
terminating event, and its command completes when nothing of it is unanswered (R296, R297). A limit that is reached ends it (R393). -/
def Obligations.TasksStartAndEnd : Prop :=
  (∀ (r : Rg) (s : State) (tk : Task),
    let g := s.region r.val
    g.task = some tk → tk.phase = .granted → tk.started = false → s.inOrder tk.start (actionRank 3) = true → g.state = .loaded →
    let u := s.reachBeat tk.start
    Gives (.taskStart r) s fun t =>
      (t.region r.val).state = .running ∧ t.clock = u.clock
      ∧ (∃ y, (t.region r.val).task = some y ∧ y.started = true ∧ y.start = u.beat ∧ y.startBeats = u.beats ∧ y.ctx = tk.ctx)
      ∧ (∀ k ∈ g.clusters, (t.cl k).activeFold = (s.cl k).initFold ∧ (t.cl k).arrivals = [] ∧ (t.cl k).lateTokens = 0)
      ∧ (g.clusters.Nodup → ∀ i k, g.clusters[i]? = some k →
          let w := (tk.entries.getD i 0).toNat
          (t.cl k).work.addr = ttWorkAddr w ∧ (t.cl k).work.len = ttWorkLen w ∧ (t.cl k).work.pos = 0
          ∧ (t.cl k).stitchList.addr = ttStitchAddr w ∧ (t.cl k).cinchList.addr = ttCinchAddr w)
      ∧ ∀ q, q ≠ r.val → t.region q = s.region q)
  ∧ (∀ (r : Rg) (s : State) (tk : Task) (e : Ending), (s.region r.val).task = some tk → tk.started = true → tk.stopped = false →
    tk.ending = some e →
    Gives (.taskStop r) s fun t =>
      t.region r.val = { s.region r.val with task := some { tk with stopped := true, phase := .stopping } }
      ∧ (∀ k ∈ (s.region r.val).clusters, (t.cl k).stopped = true ∧ (t.cl k).work.ended = true ∧ (t.cl k).stitchDesc = none)
      ∧ t.clock = (s.reachBeat (tk.endBeat + 1#48)).clock ∧ ∀ q, q ≠ r.val → t.region q = s.region q)
  ∧ (∀ (r : Rg) (s : State) (tk : Task), (s.region r.val).task = some tk → tk.started = true → tk.ending = none →
    (s.region r.val).state = .running →
    let g := s.region r.val
    let u := (s.reachBoundary 4096).settleArbs g.clusters
    (g.clusters.all (fun k => (u.cl k).taskDone u.clock) = true → ((s.ctx tk.ctx).command tk.seq).isSome = true →
      Gives (.taskEnd r) s fun t =>
        Answered tk.ctx tk.seq 0 (taskImm tk u.beat (u.lateOf g.clusters)) s t ∧ (t.region r.val).task = none
        ∧ (t.region r.val).state = (if tk.faulted then .faulted else .loaded) ∧ t.clock = u.clock
        ∧ ∀ q, q ≠ r.val → t.region q = s.region q)
    ∧ (g.clusters.all (fun k => (u.cl k).taskDone u.clock) = false → exec (.taskEnd r) s = .next s))
  ∧ (∀ (r : Rg) (s : State) (tk : Task) (e : Ending), (s.region r.val).task = some tk → tk.ending = some e → tk.stopped = true →
    let g := s.region r.val
    (g.clusters.all (fun k => (s.cl k).settled) = true → ((s.ctx tk.ctx).command tk.seq).isSome = true →
      Gives (.taskEndEarly r) s fun t =>
        Answered tk.ctx tk.seq e.status ({ e with count := s.lateOf g.clusters } : Ending).imm s t ∧ (t.region r.val).task = none
        ∧ (t.region r.val).state = stateAfter tk e.status ∧ (∀ q, q ≠ r.val → t.region q = s.region q) ∧ t.clock = s.clock)
    ∧ (g.clusters.all (fun k => (s.cl k).settled) = false → exec (.taskEndEarly r) s = .next s))
  ∧ ∀ (r : Rg) (s : State) (tk : Task), (s.region r.val).task = some tk → tk.started = true → tk.ending = none → tk.limit ≠ 0 →
    let g := s.region r.val
    let target := tk.startBeats + 2 ^ tk.limit
    let u := (if s.beats < target then s.advance (4096 * (target - s.beats) - s.now % 4096) else s).settleArbs g.clusters
    g.clusters.all (fun k => (u.cl k).taskDone u.clock) = false →
    Gives (.beatLimit r) s fun t =>
      target ≤ t.beats
      ∧ (∃ y, (t.region r.val).task = some y ∧ y.stopped = true ∧ y.ending.map (·.status) = some 0xE ∧ y.endBeat = t.beat)
      ∧ (∀ k ∈ g.clusters, (t.cl k).stopped = true) ∧ (t.region r.val).state = g.state
      ∧ (∀ q, q ≠ r.val → t.region q = s.region q)

/-! ### Boot and resets (spec/18, R70, R377) -/

/-- Power-on puts everything but the flash at reset, in the boot ROM (R426, R453). The ROM runs the preferred slot where it passes, else
the other, else boot fails (R458 to R460). I/O enable starts the enabled links (R449, R454); boot release, which Sorrel
performs, opens the control plane (R20, R35, R453). A step of bring-up makes its die ready (R384, R385). Flash programming holds management core 0 (R505). -/
def Obligations.ModuleBoots : Prop :=
  (∀ (straps : BitVec 14) (puf svc intact mtref : Bool) (s : State),
    (s.boot.phase = .off ∨ s.boot.phase = .quiesced ∨ s.boot.phase = .failed →
      Gives (.powerOn straps puf svc intact mtref) s fun t =>
        t.boot.phase = .rom ∧ t.boot.straps = straps ∧ t.boot.boots = s.boot.boots + 1 ∧ t.mgmtClock = straps.toNat % 64 * 200000
        ∧ t.boot.slotA = s.boot.slotA
        ∧ t.boot.slotB = s.boot.slotB ∧ t.boot.record0 = s.boot.record0 ∧ t.boot.record1 = s.boot.record1
        ∧ t.regions = [] ∧ t.mem = {} ∧ t.mt = { present := mtref, since := s.clock } ∧ t.cals = [] ∧ t.irq = {} ∧ t.flights = [] ∧ t.host = { bytes := s.host.bytes }
        ∧ t.ident.ok = puf ∧ t.custody.strap = svc ∧ t.custody.sealOpen = !intact ∧ t.clock = s.clock ∧ t.out = s.out
        ∧ (∀ n ∈ controlPages ++ [pgCxl], (t.page n).inReset = true)
        ∧ (s.spares.entries = [] → t.clusters = [] ∧ t.harness = {}))
    ∧ (s.boot.phase = .released → exec (.powerOn straps puf svc intact mtref) s = .next s))
  ∧ (∀ s : State, s.boot.fprog = false → s.boot.reverify = false → s.boot.phase = .rom → s.boot.current?.isSome = true →
    s.boot.record.trial = false →
    let p := s.boot.record.pref
    Gives .slotVerify s fun t =>
      (s.boot.passes p = true → t.boot = { s.boot with phase := .passed, runSlot := p, fallback := false, trial := false })
      ∧ (s.boot.passes p = false → s.boot.passes (1 - p) = true →
          t.boot = { s.boot with phase := .passed, runSlot := 1 - p, fallback := true, trial := false }
          ∧ t.latched pgFlash 1 = true)
      ∧ (s.boot.passes p = false → s.boot.passes (1 - p) = false → t.boot = { s.boot with phase := .failed, cfgFail := true })
      ∧ ChangesOnly [.boot, .pages] s t)
  ∧ (∀ s : State, s.boot.phase = .passed →
    Gives .ioEnable s fun t =>
      t.boot = { s.boot with phase := .ioEnabled, linkUp := !s.boot.perst } ∧ (t.page pgCxl).inReset = false
      ∧ (∀ l, l < 48 → s.linkEnabled l = true → (t.link l).mode = .training) ∧ t.harness.trainAt = s.mgmtClock
      ∧ ChangesOnly [.boot, .pages, .harness] s t)
  ∧ (∀ s : State, s.boot.mgmtStalled = true → exec .bootRelease s = .next s)
  ∧ (∀ s : State, s.boot.phase = .ioEnabled → s.boot.perst = false → s.boot.mgmtStalled = false →
    Gives .bootRelease s fun t =>
      t.boot.phase = .released ∧ t.boot.configReady = true ∧ t.boot.resetPending = false ∧ t.bridle.announced = 0
      ∧ (∀ n ∈ controlPages, (t.page n).inReset = false) ∧ (∀ d, d < 8 → (t.page (pgCd d)).lock = 1)
      ∧ t.latched pgModule 2 = true ∧ (s.boot.resetPending = true → t.boot.fatalLow = false)
      ∧ (s.boot.resetPending = true → s.host.masked.contains 64 = false → t.out = s.out ++ [.msix 64])
      ∧ (s.boot.resetPending = false → t.out = s.out ∧ t.boot.fatalLow = s.boot.fatalLow))
  ∧ (∀ s : State, s.boot.phase = .ioEnabled ∨ s.boot.phase = .released →
    (∀ d : Fin 8, s.ready.msd.contains d.val = false → Gives (.bringUpStep (.memorySide d)) s fun t =>
      t.ready = { s.ready with msd := s.ready.msd ++ [d.val] } ∧ t.latched pgModule 2 = true ∧ ChangesOnly [.ready, .pages] s t)
    ∧ (∀ d : Fin 8, s.ready.cd.contains d.val = false → s.ready.down.contains d.val = false →
      Gives (.bringUpStep (.compute d)) s fun t =>
        t.ready = { s.ready with cd := s.ready.cd ++ [d.val] } ∧ t.latched pgModule 2 = true ∧ t.latched pgModule 3 = true
        ∧ ChangesOnly [.ready, .pages] s t)
    ∧ (s.ready.lpddr = false → s.spares.packages = [] → Gives (.bringUpStep .lpddr) s fun t =>
      t.ready = { s.ready with lpddr := true } ∧ t.latched pgModule 2 = true ∧ ChangesOnly [.ready, .pages] s t)
    ∧ ∀ (n : Fin 14) (pos : BitVec 8) (meshOk : Bool), Gives (.bringUpStep (.seam n pos meshOk)) s fun t =>
      let ok := pos.toNat % 2 ^ seamPositions n.val
      (∀ e ∈ (seamEnds n.val).1, t.regOf (pgSeam e.1 e.2) 0x40 = (seamEnds n.val).2 * 256 + ok)
      ∧ t.ready.seamDegraded = (s.ready.seamDegraded || ok != 2 ^ seamPositions n.val - 1 || !meshOk)
      ∧ (meshOk = false → ∀ e ∈ (seamEnds n.val).1, t.ready.down.contains e.1 = true ∧ t.ready.cd.contains e.1 = false)
      ∧ ChangesOnly [.ready, .pages] s t)
  ∧ ∀ s : State,
    (s.boot.fprog = false → s.boot.phase = .rom ∨ s.boot.phase = .passed → Gives .fprogAssert s fun t =>
      t.boot = { s.boot with fprog := true, phase := .rom } ∧ (∀ n ∈ mgmtPages, (t.page n).inReset = true)
      ∧ OnlyPages mgmtPages s t ∧ ChangesOnly [.boot, .pages] s t)
    ∧ (s.boot.fprog = false → s.boot.phase = .ioEnabled ∨ s.boot.phase = .released → Gives .fprogAssert s fun t =>
      t.boot = { s.boot with fprog := true, mgmt0Reset := true, reverify := true, mgmt0Halted := false }
      ∧ (∀ n ∈ mgmtPages, (t.page n).inReset = true) ∧ t.custody.window = 0)
    ∧ (s.boot.fprog = true → Gives .fprogRelease s fun t =>
      t.boot = { s.boot with fprog := false } ∧ (∀ n ∈ mgmtPages, (t.page n).inReset = false)
      ∧ OnlyPages mgmtPages s t ∧ ChangesOnly [.boot, .pages] s t)

/-- PERST# once I/O is enabled, and a module reset, free every region and disable every context (R70, R377, R455). An island's reset lets
its transfers drain and abandons those that stay open, puts its pages' registers at reset but for conditions that hold elsewhere, and
takes what the island holds; the control island's alone lets tasks run on (R24, R42, R70, R71, R210, R377); the management cores' watchdog resets core 0's
(R456). A fatal error asserts viral and FATAL_N (R479, R497). -/
def Obligations.ResetsClearTheirIslands : Prop :=
  (∀ s : State,
    (Gives .perstAssert s fun t =>
      t.boot.perst = true ∧ t.boot.linkUp = false ∧ t.boot.configReady = false
      ∧ (s.boot.phase = .released ∨ s.boot.phase = .ioEnabled → t.boot.phase = .ioEnabled ∧ t.regions = [] ∧ t.host.contexts = [] ∧ t.flights = []
          ∧ t.mesh = {} ∧ t.cinch = [] ∧ (∀ n ∈ controlPages, (t.page n).inReset = true))
      ∧ (s.boot.phase ≠ .released → s.boot.phase ≠ .ioEnabled → t.boot.phase = s.boot.phase ∧ ChangesOnly [.boot] s t))
    ∧ (Gives .perstRelease s fun t =>
      t.boot = { s.boot with perst := false, linkUp := s.boot.phase == .ioEnabled || s.boot.phase == .released }
      ∧ ChangesOnly [.boot] s t)
    ∧ (s.boot.phase = .released ∨ s.boot.phase = .ioEnabled → Gives .moduleReset s fun t =>
      t.boot = { s.boot with phase := .ioEnabled, resetPending := true } ∧ t.regions = [] ∧ t.host.contexts = [] ∧ t.flights = []
      ∧ t.mesh = {} ∧ t.cinch = [] ∧ t.irq = {} ∧ (∀ n ∈ controlPages, (t.page n).inReset = true)
      ∧ t.counterOf pgModule 0 = s.counterOf pgModule 0 + 1 ∧ t.latched pgModule 1 = true)
    ∧ (s.boot.sorrelUp = true → Gives (.mgmtWatchdog 1) s fun t =>
      t.boot = { s.boot with mgmt0Reset := true, reverify := true, mgmt0Halted := false } ∧ t.custody.window = 0
      ∧ t.tests = {} ∧ (∀ n ∈ mgmtPages, (t.page n).regs = [] ∧ (n ≠ pgAttest → (t.page n).latch = (s.page n).level)) ∧ OnlyPages mgmtPages s t)
    ∧ exec (.mgmtWatchdog 0) s = .next s)
  ∧ (∀ (i : Island) (s : State), i ≠ .time → i ≠ .junction → i ≠ .management 1 →
    Gives (.islandReset i) s fun t =>
      (∀ n, inIsland i n = true → (t.page n).err = 0 ∧ (t.page n).enable = 0
        ∧ (∀ o, t.regOf n o = ({ s with pages := [] } : State).regOf n o)
        ∧ ((∀ k, i ≠ .cluster k) → n ≠ pgAttest → (t.page n).latch = (t.page n).level ∧ (t.page n).counters = []))
      ∧ (i = .control → t.clock = s.clock + 128 ∧ t.regions = s.regions ∧ t.bridle = s.bridle ∧ t.host.xlt = [] ∧ t.cinch = []
          ∧ t.wakes = [] ∧ t.irq = {} ∧ ∀ x, (t.ctx x).inProgress = (s.ctx x).inProgress ∧ (t.ctx x).waiting = (s.ctx x).waiting)
      ∧ (i = .cxl → t.host.deviceBias = [] ∧ t.host.xlt = [] ∧ t.boot.linkUp = false ∧ t.boot.viral = false
          ∧ t.host.masked = List.range 65)
      ∧ (∀ k, i = .cluster k → (t.cl k.val).handles = [] ∧ (t.cl k.val).retired = (s.cl k.val).retired
          ∧ (s.openIn i = [] → t.now % 4096 = 0
            ∧ ((∀ r g, s.regionOf? k.val = some (r, g) → g.load = none) → OnlyClusters [k.val] s t)
            ∧ ∀ r g, s.regionOf? k.val = some (r, g) → g.task = none → g.load = none → (t.region r).state = .faulted))
      ∧ (∀ d, i = .memorySide d → t.ready.msd.contains d.val = false
          ∧ (∀ p, s.openIn i = [p] → p.opcode = 1 → Injected (dataOrError p 0 (List.replicate p.len.toNat ⟨0, true⟩)) t)
          ∧ (SMap.getD s.mem.cache d.val [] = [] → t.mem.bytes = s.mem.bytes))
      ∧ (∀ d, i = .ioData d → t.mem.bytes = s.mem.bytes ∧ t.router (320 + d.val) = {} ∧ t.ready.lpddr = false)
      ∧ (∀ d, i = .mesh d → t.ready.cd.contains d.val = false ∧ ∀ r, r < 320 → dieOf r = d.val → t.router r = {})
      ∧ (∀ x, i = .trunk x → ∀ m, m < 8 → (t.link (8 * x.val + m)).mode = .training))
  ∧ (∀ s : State, exec (.islandReset .time) s = .next s ∧ exec (.islandReset .junction) s = .next s
    ∧ Gives (.islandReset (.management 1)) s fun t => t.mgmtClock = s.mgmtClock + 64 ∧ ChangesOnly [.mgmtClock] s t)
  ∧ ∀ (page : BitVec 16) (code : Byte) (s : State), (pageInfo page.toNat).isSome = true → page.toNat ≠ pgMgmt →
    Gives (.fatalError page code) s fun t =>
      t.boot = { s.boot with viral := true, fatalLow := true }
      ∧ (t.page page.toNat).err = ((s.page page.toNat).report s.clock 3 code.toNat 0).err
      ∧ (t.page pgMgmt).err = ((s.page pgMgmt).report s.clock 3 code.toNat page.toNat).err
      ∧ OnlyPages [page.toNat, pgMgmt] s t ∧ ChangesOnly [.pages, .boot] s t

/-! ### Identity and custody (spec/18) -/

/-- While a request runs Sorrel answers another one with 0x05; else it answers GET_CERTS, GET_STATUS and ATTEST, which takes the next index (R465, R469, R470); the custody-class requests are refused
without presence, and act and are logged with it (R468, R474, R475). BOOT_CTRL confirms a trial and moves the floor (R459, R476). The
button, the strap and the seal make presence, or end it (R471, R473). A forecast message that is received changes nothing (R469). -/
def Obligations.IdentityAndCustodyAct : Prop :=
  (∀ (c : Instr) (tag : Byte) (code : Nat) (s : State), s.boot.sorrelUp = true → s.mgmtClock < s.ident.busyUntil →
    (c = .getCerts tag ∧ code = 1) ∨ (c = .getStatus tag ∧ code = 3) ∨ (∃ nonce, c = .attest tag nonce ∧ code = 2)
      ∨ (c = .replaceTree tag ∧ code = 0x10) ∨ (c = .rekey tag ∧ code = 0x11) ∨ (∃ cert, c = .loadDikCert tag cert ∧ code = 0x12)
      ∨ (∃ floor, c = .setFloor tag floor ∧ code = 0x13) →
    Gives c s fun t =>
      t = s.emit (.mctp (toBytes 4 Config.enterpriseNumber.toNat ++ toBytes 1 code ++ [tag] ++ toBytes 1 5)))
  ∧ (∀ (tag : Byte) (s : State), s.boot.sorrelUp = true → s.ident.busyUntil ≤ s.mgmtClock →
    let head := fun (code status : Nat) => toBytes 4 Config.enterpriseNumber.toNat ++ toBytes 1 code ++ [tag] ++ toBytes 1 status
    let x := s.ident
    (Gives (.getCerts tag) s fun t =>
      t.out = s.out ++ [.mctp (head 1 0 ++ (x.deviceCert ++ x.akCertificate))] ∧ ChangesOnly [.out, .ident] s t)
    ∧ (Gives (.getStatus tag) s fun t =>
      t.out = s.out ++ [.mctp (head 3 0 ++ (toBytes 4 s.attestStatus ++ toBytes 4 s.custodyStatus ++ toBytes 4 s.flashStatus))]
      ∧ t.ident = { x with busyUntil := s.mgmtClock + s.requestTime 3 } ∧ ChangesOnly [.out, .ident] s t)
    ∧ (∀ nonce : BitVec 256, x.ok = true → x.akNext < 2 ^ 40 → Gives (.attest tag nonce) s fun t =>
      let report := s.report168 nonce x.akNext
      t.out = s.out ++ [.mctp (head 2 0 ++ (report ++ Config.signature false x.akSerial x.akNext report))]
      ∧ t.ident.akNext = x.akNext + 1 ∧ x.akNext < t.ident.akReserved
      ∧ t.counterOf pgAttest 0 = s.counterOf pgAttest 0 + 1 ∧ t.latched pgAttest 1 = true ∧ ChangesOnly [.out, .pages, .ident] s t)
    ∧ (∀ nonce : BitVec 256, x.ok = false ∨ 2 ^ 40 ≤ x.akNext → Gives (.attest tag nonce) s fun t =>
      t.out = s.out ++ [.mctp (head 2 (if x.ok then 4 else 3) ++ [])] ∧ ChangesOnly [.out, .ident] s t)
    ∧ (∀ (c : Instr) (code : Nat), (c = .replaceTree tag ∧ code = 0x10) ∨ (c = .rekey tag ∧ code = 0x11)
        ∨ (∃ cert, c = .loadDikCert tag cert ∧ code = 0x12) ∨ (∃ floor, c = .setFloor tag floor ∧ code = 0x13) →
      s.custody.present = false → Gives c s fun t =>
        t.out = s.out ++ [.mctp (head code 2 ++ [])] ∧ t.counterOf pgCustody 0 = s.counterOf pgCustody 0 + 1
        ∧ t.latched pgCustody 2 = true ∧ ChangesOnly [.out, .pages, .ident] s t)
    ∧ (s.custody.present = true → x.ok = true →
      (x.dikNext < 1024 → Gives (.replaceTree tag) s fun t =>
        t.ident.akSerial = x.akSerial + 1 ∧ t.ident.akNext = 0 ∧ t.ident.dikNext = x.dikNext + 1
        ∧ t.ident.dikSerial = x.dikSerial ∧ t.custody.acts = s.custody.acts + 1
        ∧ t.out = s.out ++ [.mctp (head 0x10 0 ++ t.ident.akCertificate)])
      ∧ (Gives (.rekey tag) s fun t =>
        t.ident.dikSerial = x.dikSerial + 1 ∧ t.ident.akSerial = x.akSerial + 1 ∧ t.ident.uncertified = true
        ∧ t.ident.rekeys = x.rekeys + 1 ∧ t.custody.acts = s.custody.acts + 1
        ∧ t.custody.latched = (s.custody.latched && s.custody.sealOpen))
      ∧ ∀ cert, Gives (.loadDikCert tag cert) s fun t =>
        t.ident = { x with certLoaded := cert, uncertified := false, busyUntil := s.mgmtClock + s.requestTime 0x12 } ∧ t.custody.acts = s.custody.acts + 1
        ∧ t.out = s.out ++ [.mctp (head 0x12 0 ++ [])])
    ∧ (s.custody.present = true → s.boot.record.gen.toNat + 1 < 2 ^ 32 → ∀ floor : BitVec 16, floor.toNat < 1024 →
      Gives (.setFloor tag floor) s fun t =>
        t.boot.floor = floor.toNat ∧ t.custody.acts = s.custody.acts + 1 ∧ t.out = s.out ++ [.mctp (head 0x13 0 ++ [])]))
  ∧ (∀ (req : Req) (s : State), s.boot.record.gen.toNat + 1 < 2 ^ 32 →
    (req.val = 16 → s.pageOpen req pgFlash = true → s.boot.trial = true → Gives (.confirm req) s fun t =>
      t.boot.trial = false ∧ t.boot.record.pref = s.boot.runSlot ∧ t.boot.record.trial = false
      ∧ t.boot.floor = (if (s.boot.slot s.boot.runSlot).raiseFloor then max s.boot.floor (s.boot.slot s.boot.runSlot).svn
                        else s.boot.floor)
      ∧ ChangesOnly [.boot] s t)
    ∧ ∀ v : BitVec 10,
      (req.val = 16 → s.pageOpen req pgFlash = true → s.boot.floor < v.toNat → Gives (.floorRaise req v) s fun t =>
        t.boot.floor = v.toNat ∧ ChangesOnly [.boot] s t)
      ∧ ((s.page pgFlash).inReset = false → v.toNat ≠ s.boot.floor → Gives (.floorSet req v) s fun t =>
        (s.custody.present = true → t.boot.floor = v.toNat ∧ t.custody.acts = s.custody.acts + 1)
        ∧ (s.custody.present = false → t.boot = s.boot ∧ t.custody = s.custody
            ∧ (t.page pgFlash).err = ((s.page pgFlash).report s.clock 0 0xC0 (req.val * 4096 + 0x40)).err)))
  ∧ (∀ s : State, s.boot.powered = true →
    (s.boot.mgmtStalled = true → exec .buttonPress s = .next s)
    ∧ (s.boot.mgmtStalled = false → Gives .buttonPress s fun t =>
      t.custody = { s.custody with window := 60000, openedAt := s.mgmtClock } ∧ t.counterOf pgCustody 3 = s.counterOf pgCustody 3 + 1
      ∧ (s.custody.present = false → s.custody.sealOpen = false → t.latched pgCustody 1 = true)
      ∧ ChangesOnly [.pages, .custody] s t)
    ∧ (∀ closed, Gives (.svcStrapChange closed) s fun t =>
      t.custody = { s.custody with strap := closed } ∧ ChangesOnly [.pages, .custody] s t)
    ∧ (s.custody.sealOpen = false → Gives .sealOpen s fun t =>
      t.custody.present = false ∧ t.custody.sealOpen = true ∧ t.custody.latched = true ∧ t.latched pgCustody 3 = true
      ∧ t.custody.acts = s.custody.acts + 1 ∧ t.custody.window = s.custody.window ∧ ChangesOnly [.pages, .custody] s t)
    ∧ Gives .sealIntact s fun t =>
      t.custody = { s.custody with sealOpen := false } ∧ ChangesOnly [.pages, .custody] s t)
  ∧ ∀ s : State,
    (s.custody.window ≠ 0 → Gives .windowEnd s fun t =>
      t.custody = { s.custody with window := 0 } ∧ t.mgmtClock = max s.mgmtClock (s.custody.openedAt + 6000000000)
      ∧ ChangesOnly [.mgmtClock, .pages, .custody] s t)
    ∧ (s.custody.window = 0 → exec .windowEnd s = .next s)
    ∧ ∀ body, exec (.forecastReceived body) s = .next s

/-! ### Spares and self-test (spec/19) -/

/-- A hard fault is recorded in its page and the spare map, and a core's or cluster's retirement waits for its region (R484 to R487,
R490); it takes effect at the next beat once the cluster is in no region (R487). A parity error, or an uncorrectable word that a read finds, poisons its word (R215, R305,
R315, R332, R484). A queued row
repair runs (R492). A self-test takes its cluster for 24,576 beats (R495). An entry is removed from the map under custody (R491). -/
def Obligations.FaultsAreSpared : Prop :=
  (∀ s : State, s.spares.entries.length < 32764 →
    let add := fun (kind loc : Nat) (t : State) => t.spares.entries = s.spares.entries ++ [{ kind := kind, loc := loc, beat := s.beat }]
      ∧ t.spares.gen = s.spares.gen + 1 ∧ t.counterOf pgMgmt 3 = s.counterOf pgMgmt 3 + 1
    (∀ c : CoreId,
      let k := c.k.val
      let row := (s.cl k).physRow c.i.val c.j.val
      ∀ h : row < 33, s.spares.pending.contains (.core c.k c.j ⟨row, h⟩) = false → (s.cl k).retired = false →
      Gives (.hardFault (.core c)) s fun t =>
        (if s.columnUsed k c.j.val then add 2 (clusterLoc k 1) t else add 1 (coreLoc k c.j.val row) t)
        ∧ t.spares.pending = s.spares.pending ++ [.core c.k c.j ⟨row, h⟩] ∧ t.latched (pgClCtrl k) 20 = true
        ∧ (t.page (pgClCtrl k)).err = ((s.page (pgClCtrl k)).report s.clock 2 0xD2 0).err ∧ OnlyClusters [k] s t
        ∧ (∀ n, t.core k n = s.core k n))
    ∧ (∀ (k : Cl) (cause : Fin 3), s.spares.pending.contains (.cluster k) = false → (s.cl k.val).retired = false →
      Gives (.hardFault (.cluster k cause)) s fun t =>
        add 2 (clusterLoc k.val (cause.val + 2)) t ∧ t.spares.pending = s.spares.pending ++ [.cluster k]
        ∧ (t.page (pgClCtrl k.val)).err = ((s.page (pgClCtrl k.val)).report s.clock 0 0xD2 0).err ∧ ChangesOnly [.pages, .spares] s t)
    ∧ (∀ (stack : Fin 24) (pc : Fin 32) (bank : Fin 16) (row : BitVec 15), s.spares.rowFaults = [] →
      Gives (.hardFault (.hbmRow stack pc bank row)) s fun t =>
        add 3 (rowLoc stack.val pc.val bank.val row.toNat) t
        ∧ t.spares.repairs = s.spares.repairs ++ [(stack.val, pc.val, bank.val, row.toNat)]
        ∧ (t.page (pgHbm stack.val)).err = ((s.page (pgHbm stack.val)).report s.clock 0 0xD4 0).err ∧ ChangesOnly [.pages, .spares] s t)
    ∧ (∀ (stack : Fin 24) (pc : Fin 32), (s.spares.locs 4).contains (channelLoc stack.val pc.val) = false →
      Gives (.hardFault (.pseudoChannel stack pc)) s fun t =>
        add 4 (channelLoc stack.val pc.val) t ∧ (t.page (pgHbm stack.val)).err = ((s.page (pgHbm stack.val)).report s.clock 0 0xD5 0).err
        ∧ ChangesOnly [.pages, .spares] s t)
    ∧ (∀ (seam : Fin 14) (pos : Fin 8) (link : Fin 9) (wire : BitVec 10) (dir : Bool),
      Gives (.hardFault (.seamWire seam pos link wire dir)) s fun t =>
        add 7 (wireLoc seam.val pos.val link.val wire.toNat dir) t ∧ ChangesOnly [.pages, .spares] s t)
    ∧ (∀ p : Fin 16, (s.spares.locs 8).contains p.val = false → Gives (.hardFault (.package p)) s fun t =>
      add 8 p.val t ∧ (t.page (pgLpddr p.val)).err = ((s.page (pgLpddr p.val)).report s.clock 0 0xD7 0).err
      ∧ ChangesOnly [.pages, .spares] s t)
    ∧ (∀ (l : Fin 48) (lane : Fin 4), bitAt (s.link l.val).retired.toNat lane.val = false →
      Gives (.hardFault (.lane l lane)) s fun t =>
        add 6 (laneLoc l.val lane.val) t ∧ bitAt (t.link l.val).retired.toNat lane.val = true
        ∧ ((s.link l.val).mode = .up → (t.link l.val).mode = .retraining) ∧ ChangesOnly [.pages, .harness, .spares] s t))
  ∧ (∀ (c : CoreId) (e : Fin 128) (s : State), (s.core c.k.val (coreNum c)).parityErrors = [] →
    Gives (.parityError (.core c (.store e))) s fun t =>
      let n := pgClCtrl c.k.val
      (t.core c.k.val (coreNum c)).store = SMap.put (s.core c.k.val (coreNum c)).store e.val
        { (s.core c.k.val (coreNum c)).entry e.val with poison := true }
      ∧ t.counterOf n 57 = s.counterOf n 57 + 1 ∧ (t.page n).err = ((s.page n).report s.clock 1 0xD1 0).err
      ∧ OnlyClusters [c.k.val] s t ∧ OnlyPages [n] s t ∧ ChangesOnly [.pages, .clusters] s t)
  ∧ (∀ (k : Cl) (row : Fin 8192) (w : Fin 16) (s : State),
    let n := pgRowmem k.val
    let x := (s.cl k.val).row k.val row.val
    (Gives (.parityError (.row k row w false)) s fun t =>
      t.counterOf n 0 = s.counterOf n 0 + 1 ∧ t.latched n 1 = true ∧ OnlyPages [n] s t ∧ ChangesOnly [.pages] s t)
    ∧ (x.poison.getLsbD w.val = false → Gives (.parityError (.row k row w true)) s fun t =>
      (t.cl k.val).row k.val row.val = { x with poison := x.poison ||| BitVec.ofNat 16 (2 ^ w.val) }
      ∧ (∀ m, m ≠ row.val → (t.cl k.val).row k.val m = (s.cl k.val).row k.val m)
      ∧ t.counterOf n 1 = s.counterOf n 1 + 1 ∧ t.latched n 2 = true ∧ (t.page n).err = ((s.page n).report s.clock 1 0x72 row.val).err
      ∧ OnlyClusters [k.val] s t ∧ OnlyPages [n] s t ∧ ChangesOnly [.pages, .clusters] s t))
  ∧ (∀ (n : BitVec 16) (s : State),
    let u := n.toNat / 32768
    let v := n.toNat % 32768
    (s.cinchUnit u).poisoned v = false → Gives (.parityError (.cinch n)) s fun t =>
      (t.cinchUnit u).poisoned v = true ∧ (t.cinchUnit u).values = (s.cinchUnit u).values
      ∧ (t.page (pgCinch u)).err = ((s.page (pgCinch u)).report s.clock 1 0x90 0).err
      ∧ OnlyPages [pgCinch u] s t ∧ ChangesOnly [.pages, .cinch] s t)
  ∧ (∀ (r : Fin 322) (n : BitVec 8) (s : State) (h : HeldPacket), (s.router r.val).held[n.toNat]? = some h →
    (Gives (.parityError (.flit r n none)) s fun t =>
      (t.router r.val).held[n.toNat]? = some { h with packet := { h.packet with badHeader := true } } ∧ ChangesOnly [.mesh] s t)
    ∧ ∀ w : Fin 64, w.val < h.packet.data.length → Gives (.parityError (.flit r n (some w))) s fun t =>
      (t.router r.val).held[n.toNat]?
        = some { h with packet := { h.packet with wordPoison := h.packet.wordPoison ||| BitVec.ofNat 64 (2 ^ w.val) } }
      ∧ ChangesOnly [.mesh] s t)
  ∧ (∀ (u : RetireUnit) (s : State), s.spares.pending.contains u = true → s.regionOf? (retireOf u) = none →
    Gives (.retirement u) s fun t =>
      t.spares.pending = listErase s.spares.pending u ∧ t.now % 4096 = 0 ∧ OnlyClusters [retireOf u] s t
      ∧ (∀ k, u = .cluster k → (t.cl k.val).retired = true ∧ (t.cl k.val).power = .off)
      ∧ (∀ k col row, u = .core k col row →
          ((s.cl k.val).coreRetired.any (fun p => p.1 == col.val) = true → (t.cl k.val).retired = true ∧ (t.cl k.val).power = .off)
          ∧ ((s.cl k.val).coreRetired.any (fun p => p.1 == col.val) = false →
              SMap.getD (t.cl k.val).skipRow col.val 32 = row.val ∧ (t.cl k.val).retired = (s.cl k.val).retired
              ∧ (t.cl k.val).rows = [])))
  ∧ (∀ (stack : Fin 24) (pc : Fin 32) (bank : Fin 16) (row : BitVec 15) (s : State),
    Gives (.rowRepair stack pc bank row) s fun t =>
      t.spares = { s.spares with repairs := listErase s.spares.repairs (stack.val, pc.val, bank.val, row.toNat) }
      ∧ ChangesOnly [.spares] s t)
  ∧ (∀ (req : Req) (k : Cl) (s : State), isMgmtReq req = true → s.pageOpen req pgMgmt = true → s.regionOf? k.val = none →
    (s.cl k.val).retired = false → s.tests.running.any (fun t => t.1 == k.val) = false → s.tests.running.length < 8 →
    Gives (.selfTest req k) s fun t =>
      t.tests = { s.tests with running := s.tests.running ++ [(k.val, s.clock)] }
      ∧ t.cl k.val = { s.cl k.val with selfTest := true, power := .run } ∧ t.counterOf pgMgmt 0 = s.counterOf pgMgmt 0 + 1
      ∧ OnlyClusters [k.val] s t ∧ OnlyPages [pgMgmt] s t ∧ ChangesOnly [.pages, .clusters, .tests] s t)
  ∧ (∀ (k : Cl) (pass : Bool) (s : State) (began : Nat), firstSome (fun t => t.1 == k.val) s.tests.running = some (k.val, began) →
    Gives (.selfTestEnd k pass) s fun t =>
      t.tests = { running := listErase s.tests.running (k.val, began), cluster := k.val, pass := pass, stopped := false }
      ∧ t.clock = max s.clock (began + 100663296) ∧ (t.cl k.val).selfTest = false
      ∧ (t.cl k.val).power = (if (s.cl k.val).retired then .off else .idle)
      ∧ (t.cl k.val).rows = [] ∧ (t.cl k.val).rowsFree = none ∧ OnlyClusters [k.val] s t)
  ∧ ∀ (req : Req) (index : BitVec 15) (s : State), (s.page pgMgmt).inReset = false → index.toNat < s.spares.entries.length →
    (s.custody.present = true → Gives (.spareRemove req index) s fun t =>
      t.spares = { s.spares with entries := listDrop s.spares.entries index.toNat, gen := s.spares.gen + 1 }
      ∧ t.custody.acts = s.custody.acts + 1 ∧ ChangesOnly [.pages, .custody, .spares] s t)
    ∧ (s.custody.present = false → s.regOf pgMgmt 0x108 ≠ index.toNat → Gives (.spareRemove req index) s fun t =>
      t.spares = s.spares ∧ t.custody = s.custody
      ∧ (t.page pgMgmt).err = ((s.page pgMgmt).report s.clock 0 0xC0 (req.val * 4096 + 0x108)).err ∧ ChangesOnly [.pages] s t)

/-! ### The whole machine -/

/-- What the machine holds at reset. The queue is empty, power is off and PERST# is asserted (log 4: the model's choice of the moment).
Machine time starts in ACQUIRE at zero, unsynchronised, on the local reference, with CHECK_EN set (R66, R72); every region is FREE; every
calendar is empty; every cinch is zero and unpoisoned (R332); route entries are not valid (R443); the registers hold the values of their
chapters' tables (R223, R307, R330, R397, R427, R429, R451); memory is canonical and lists nothing (log 5). -/
def Obligations.ResetStateHolds : Prop :=
  let s := State.reset
  (s.pending = [] ∧ s.out = [] ∧ s.boot.phase = .off ∧ s.boot.perst = true ∧ s.mem.bytes = [] ∧ MemoryInv s)
  ∧ (s.mt.counter = 0 ∧ s.mt.mode = .acquire ∧ s.mt.unsync = true ∧ s.mt.localRef = true ∧ s.regOf pgMtime 0x40 = 1)
  ∧ (∀ r, (s.region r).state = .free)
  ∧ (∀ n, s.cal n = [])
  ∧ (∀ u v, SMap.getD (SMap.getD s.cinch u {}).values v 0 = 0 ∧ (SMap.getD s.cinch u {}).poison = [])
  ∧ (∀ i, SMap.getD s.harness.routes i 0 = 0)
  ∧ (∀ k a, (s.cl k).arrival a = 0 ∧ ((s.cl k).handle a).valid = false ∧ (s.cl k).row k a = ({} : Row))
  ∧ s.regOf pgBridle 0x40 = 8000 * 65536 + 65535 ∧ s.regOf pgBridle 0x88 = 32 * 256 + 9
  ∧ (∀ d, d < 8 → s.regOf pgBridle (0x50 + 4 * d) = 1000 ∧ s.regOf (pgScrub d) 0x40 = 457000)
  ∧ ∀ k, k < 320 → s.regOf (pgArbiter k) 0x40 = 8 ∧ s.regOf (pgRouter k) 0x40 = 272 ∧ s.regOf (pgClPower k) 0x40 = 10

/-- No command touches the queue: after the front command the rest of the queue stands as it stood (log 1). -/
def Obligations.QueueKeepsItsOrder : Prop :=
  ∀ (c : Instr) (cs : List Instr) (s t : State), step { s with pending := c :: cs } = .next t → t.pending = cs

/-- The invariant of memory: every step keeps device memory and host memory in their canonical form (log 5), so that equal memories are
equal lists. -/
def Obligations.StepsKeepMemoryCanonical : Prop :=
  ∀ s t : State, MemoryInv s → step s = .next t → MemoryInv t

/-- Every command keeps its frame: it changes no part of the machine but those that `partsOf` names for it. -/
def Obligations.CommandsKeepTheirFrames : Prop := ∀ c : Instr, Frame c (partsOf c)
end

