-- ==== Sys2Proof/Laws/Frame.lean ====
section
/-! SUPPORT. Frames: how `ChangesOnly` composes, and which parts of the state each shared operation may change. -/
namespace Sys2Proof.Machine

namespace ChangesOnly
variable {ps qs : List Part} {r s t : State}

theorem refl : ChangesOnly ps s s := ⟨rfl, fun p _ => by cases p <;> rfl⟩

theorem mono (h : ChangesOnly ps s t) (sub : ps ⊆ qs) : ChangesOnly qs s t := ⟨h.1, fun p hp => h.2 p fun m => hp (sub m)⟩

theorem trans (h : ChangesOnly ps r s) (k : ChangesOnly ps s t) : ChangesOnly ps r t := by
  refine ⟨k.1.trans h.1, fun p hp => ?_⟩
  have a := h.2 p hp
  have b := k.2 p hp
  cases p <;> exact b.trans a

/-- A further operation whose parts are among those that have changed. -/
theorem andThen (h : ChangesOnly ps r s) (k : ChangesOnly qs s t) (sub : qs ⊆ ps) : ChangesOnly ps r t := h.trans (k.mono sub)

/-- A pass over a list keeps a frame that each of its steps keeps. -/
theorem foldl {α : Type} {f : State → α → State} (step : ∀ u a, ChangesOnly ps u (f u a)) :
    ∀ (l : List α) (s : State), ChangesOnly ps s (l.foldl f s)
  | [], _ => refl
  | a :: l, s => (step s a).trans (foldl step l (f s a))

theorem foldl_fst {α β : Type} {f : State × β → α → State × β} (step : ∀ u a, ChangesOnly ps u.1 (f u a).1) :
    ∀ (l : List α) (u : State × β), ChangesOnly ps u.1 (l.foldl f u).1
  | [], _ => refl
  | a :: l, u => (step u a).trans (foldl_fst step l (f u a))

/-- Whichever way a test falls. -/
theorem ite {c : Prop} [Decidable c] {u : State} (h : ChangesOnly ps s t) (k : ChangesOnly ps s u) :
    ChangesOnly ps s (if c then t else u) := by split <;> assumption
end ChangesOnly

namespace State
variable (s : State)
open ChangesOnly

/-! ### Operations on one part -/

theorem modPage_frame (n : Nat) (f : Page → Page) : ChangesOnly [.pages] s (s.modPage n f) :=
  ⟨rfl, fun p m => by cases p <;> first | exact absurd (by decide) m | rfl⟩

theorem report_frame (n c d e : Nat) : ChangesOnly [.pages] s (s.report n c d e) :=
  ⟨rfl, fun p m => by cases p <;> first | exact absurd (by decide) m | rfl⟩

theorem pulse_frame (n e : Nat) : ChangesOnly [.pages] s (s.pulse n e) :=
  ⟨rfl, fun p m => by cases p <;> first | exact absurd (by decide) m | rfl⟩

theorem raiseEvent_frame (n e : Nat) : ChangesOnly [.pages] s (s.raiseEvent n e) :=
  ⟨rfl, fun p m => by cases p <;> first | exact absurd (by decide) m | rfl⟩

theorem dropEvent_frame (n e : Nat) : ChangesOnly [.pages] s (s.dropEvent n e) :=
  ⟨rfl, fun p m => by cases p <;> first | exact absurd (by decide) m | rfl⟩

theorem count_frame (n c d : Nat) : ChangesOnly [.pages] s (s.count n c d) :=
  ⟨rfl, fun p m => by cases p <;> first | exact absurd (by decide) m | rfl⟩

theorem setReg_frame (n o w : Nat) : ChangesOnly [.pages] s (s.setReg n o w) :=
  ⟨rfl, fun p m => by cases p <;> first | exact absurd (by decide) m | rfl⟩

theorem emit_frame (o : Output) : ChangesOnly [.out] s (s.emit o) :=
  ⟨rfl, fun p m => by cases p <;> first | exact absurd (by decide) m | rfl⟩

theorem modCl_frame (k : Nat) (f : ClusterState → ClusterState) : ChangesOnly [.clusters] s (s.modCl k f) :=
  ⟨rfl, fun p m => by cases p <;> first | exact absurd (by decide) m | rfl⟩

theorem modCore_frame (k n : Nat) (f : CoreState → CoreState) : ChangesOnly [.clusters] s (s.modCore k n f) :=
  ⟨rfl, fun p m => by cases p <;> first | exact absurd (by decide) m | rfl⟩

theorem active_frame (k : Nat) : ChangesOnly [.clusters] s (s.active k) :=
  ⟨rfl, fun p m => by cases p <;> first | exact absurd (by decide) m | rfl⟩

theorem unseal_frame (k : Nat) : ChangesOnly [.clusters] s (s.unseal k) :=
  ⟨rfl, fun p m => by cases p <;> first | exact absurd (by decide) m | rfl⟩

theorem modRegion_frame (n : Nat) (f : Region → Region) : ChangesOnly [.regions] s (s.modRegion n f) :=
  ⟨rfl, fun p m => by cases p <;> first | exact absurd (by decide) m | rfl⟩

theorem setCal_frame (n : Nat) (es : List CalEntry) : ChangesOnly [.cals] s (s.setCal n es) :=
  ⟨rfl, fun p m => by cases p <;> first | exact absurd (by decide) m | rfl⟩

theorem modCtx_frame (x : Nat) (f : Context → Context) : ChangesOnly [.host] s (s.modCtx x f) :=
  ⟨rfl, fun p m => by cases p <;> first | exact absurd (by decide) m | rfl⟩

theorem hostWrite_frame (a : Nat) (bs : List Byte) : ChangesOnly [.host] s (s.hostWrite a bs) :=
  ⟨rfl, fun p m => by cases p <;> first | exact absurd (by decide) m | rfl⟩

theorem modSource_frame (n : Nat) (f : Source → Source) : ChangesOnly [.irq] s (s.modSource n f) :=
  ⟨rfl, fun p m => by cases p <;> first | exact absurd (by decide) m | rfl⟩

theorem modRouter_frame (n : Nat) (f : RouterState → RouterState) : ChangesOnly [.mesh] s (s.modRouter n f) :=
  ⟨rfl, fun p m => by cases p <;> first | exact absurd (by decide) m | rfl⟩

theorem modBridle_frame (f : Bridle → Bridle) : ChangesOnly [.bridle] s (s.modBridle f) :=
  ⟨rfl, fun p m => by cases p <;> first | exact absurd (by decide) m | rfl⟩

theorem modCinch_frame (u : Nat) (f : CinchUnit → CinchUnit) : ChangesOnly [.cinch] s (s.modCinch u f) :=
  ⟨rfl, fun p m => by cases p <;> first | exact absurd (by decide) m | rfl⟩

theorem modWake_frame (t : Nat) (f : WakeQueue → WakeQueue) : ChangesOnly [.wakes] s (s.modWake t f) :=
  ⟨rfl, fun p m => by cases p <;> first | exact absurd (by decide) m | rfl⟩

theorem modLink_frame (l : Nat) (f : Link → Link) : ChangesOnly [.harness] s (s.modLink l f) :=
  ⟨rfl, fun p m => by cases p <;> first | exact absurd (by decide) m | rfl⟩

theorem fresh_frame : ChangesOnly [.freeCount] s s.fresh.2 :=
  ⟨rfl, fun p m => by cases p <;> first | exact absurd (by decide) m | rfl⟩

theorem freshN_frame (n : Nat) : ChangesOnly [.freeCount] s (s.freshN n).2 :=
  ⟨rfl, fun p m => by cases p <;> first | exact absurd (by decide) m | rfl⟩

/-! ### Time -/

theorem setTime_frame (c n : Nat) : ChangesOnly timeParts s (s.setTime c n) := 
  ⟨rfl, fun p m => by cases p <;> first | exact absurd (by decide) m | rfl⟩

theorem endBeat_frame : ChangesOnly timeParts s s.endBeat := 
  ⟨rfl, fun p m => by cases p <;> first | exact absurd (by decide) m | rfl⟩

theorem passBeats_frame : ∀ (n : Nat) (s : State), ChangesOnly timeParts s (passBeats n s)
  | 0, _ => .refl
  | n + 1, s => ((endBeat_frame s).trans (setTime_frame _ _ _)).trans (passBeats_frame n _)

/-- The passing of time changes time itself and what counts by the beat. -/
theorem advance_frame (d : Nat) : ChangesOnly timeParts s (s.advance d) := (passBeats_frame _ s).trans (setTime_frame _ _ _)

theorem reachClock_frame (c : Nat) : ChangesOnly timeParts s (s.reachClock c) := advance_frame _ _
theorem reachBoundary_frame (n : Nat) : ChangesOnly timeParts s (s.reachBoundary n) := advance_frame _ _
theorem reachBeat_frame (b : BitVec 48) : ChangesOnly timeParts s (s.reachBeat b) := advance_frame _ _

theorem speaks_frame (e : BitVec 16) (p : Packet) : ChangesOnly [.mesh] s (s.speaks e p) :=
  .ite ⟨rfl, fun p m => by cases p <;> first | exact absurd (by decide) m | rfl⟩ .refl

theorem takeDelivery_frame (d : Delivery) : ChangesOnly [.mesh] s (s.takeDelivery d) :=
  ⟨rfl, fun p m => by cases p <;> first | exact absurd (by decide) m | rfl⟩

theorem receive_frame (p : Packet) : ChangesOnly (timeParts ++ [.mesh]) s (s.receive p) := by
  unfold receive
  split
  · exact .refl
  · rename_i d _
    have a : ChangesOnly (timeParts ++ [.mesh]) s (if s.hasArrived p then s else s.reachClock d.due) :=
      .ite .refl ((s.reachClock_frame _).mono (by decide))
    exact (a.andThen (takeDelivery_frame _ _) (by decide)).andThen (speaks_frame _ _ _) (by decide)

/-! ### Operations that join others -/

theorem sendMsix_frame (v : Nat) : ChangesOnly [.out, .host] s (s.sendMsix v) := by
  unfold sendMsix
  split
  · split
    · exact .refl
    · exact ⟨rfl, fun p m => by cases p <;> first | exact absurd (by decide) m | rfl⟩
  · exact (s.emit_frame _).mono (by decide)

theorem firstRecord_frame (n off w : Nat) : ChangesOnly [.pages] s (s.firstRecord n off w) :=
  .ite ((s.setReg_frame n off w).trans (modPage_frame _ n _)) .refl

theorem coreExc_frame (k n kind q : Nat) : ChangesOnly [.pages] s (s.coreExc k n kind q) :=
  ((s.firstRecord_frame _ _ _).trans (pulse_frame _ _ _)).trans (count_frame _ _ _ _)

theorem lateToken_frame (k n kind fold q link phase : Nat) :
    ChangesOnly [.pages, .clusters] s (s.lateToken k n kind fold q link phase) :=
  ((((s.firstRecord_frame _ _ _).trans (pulse_frame _ _ _)).trans (count_frame _ _ _ _)).mono (by decide)).andThen
    (modCl_frame _ k _) (by decide)

theorem arrive_frame (k h : Nat) (poison : Bool) : ChangesOnly [.pages, .clusters] s (s.arrive k h poison) :=
  .ite ((((s.modCl_frame k _).mono (by decide)).andThen (pulse_frame _ _ _) (by decide)).andThen (count_frame _ _ _ _) (by decide))
    ((s.modCl_frame k _).mono (by decide))

theorem modCls_frame (ks : List Nat) (f : ClusterState → ClusterState) : ChangesOnly [.clusters] s (s.modCls ks f) :=
  .foldl (fun u k => u.modCl_frame k f) ks s

theorem modLimiter_frame (f : Glide → Glide) : ChangesOnly [.clusters] s (s.modLimiter f) := modCls_frame _ _ _

theorem charge_frame (page x c n : Nat) : ChangesOnly [.pages, .moved] s (s.charge page x c n) := 
  ⟨rfl, fun p m => by cases p <;> first | exact absurd (by decide) m | rfl⟩

theorem endTask_frame (k : Nat) (e : Ending) : ChangesOnly [.regions, .clusters] s (s.endTask k e) := by
  unfold endTask
  split
  · split
    · exact .ite (((s.modRegion_frame _ _).mono (by decide)).andThen (modCl_frame _ _ _) (by decide)) .refl
    · exact .refl
  · exact .refl

theorem markFault_frame (k : Nat) : ChangesOnly [.regions] s (s.markFault k) := by
  unfold markFault
  split
  · exact .ite (modRegion_frame _ _ _) (.ite (modRegion_frame _ _ _) .refl)
  · exact .refl

theorem uncontained_frame (k page code detail engine : Nat) :
    ChangesOnly [.pages, .regions, .clusters] s (s.uncontained k page code detail engine) :=
  (((s.report_frame _ _ _ _).mono (by decide)).andThen (endTask_frame _ _ _) (by decide)).andThen (markFault_frame _ _) (by decide)

theorem memoryFault_frame (k page engine unit code addr : Nat) :
    ChangesOnly [.pages, .regions, .clusters] s (s.memoryFault k page engine unit code addr) :=
  (((s.report_frame _ _ _ _).mono (by decide)).andThen (endTask_frame _ _ _) (by decide)).andThen (markFault_frame _ _) (by decide)

theorem wake_frame (t : Nat) : ChangesOnly [.irq] s (s.wake t) :=
  ⟨rfl, fun p m => by cases p <;> first | exact absurd (by decide) m | rfl⟩

theorem offerTo_frame (n t : Nat) : ChangesOnly [.irq, .out, .host] s (s.offerTo n t) := by
  have a : ChangesOnly [.irq, .out, .host] s ((s.modSource n fun x => { x with offer := some (t, s.clock) }).wake t) :=
    ((s.modSource_frame n _).mono (by decide)).andThen (wake_frame _ _) (by decide)
  exact .ite (a.andThen (sendMsix_frame _ _) (by decide)) a

theorem lapse_frame (n : Nat) : ChangesOnly [.irq] s (s.lapse n) :=
  .ite .refl ⟨rfl, fun p m => by cases p <;> first | exact absurd (by decide) m | rfl⟩

theorem claimFor_frame (t n : Nat) : ChangesOnly [.irq] s (s.claimFor t n) := 
  ⟨rfl, fun p m => by cases p <;> first | exact absurd (by decide) m | rfl⟩

theorem fillPort_frame (r input : Nat) : ChangesOnly [.mesh] s (s.fillPort r input) := .ite (modRouter_frame _ _ _) .refl

theorem injectAt_frame (r input : Nat) (p : Packet) : ChangesOnly [.mesh] s (s.injectAt r input p) :=
  (s.modRouter_frame r _).trans (fillPort_frame _ _ _)

theorem inject_frame (p : Packet) : ChangesOnly [.mesh] s (s.inject p) := (injectAt_frame _ _ _ _).trans (speaks_frame _ _ _)

theorem sendFlit_frame (r out : Nat) (a : Asking) : ChangesOnly [.mesh] s (s.sendFlit r out a) := by
  unfold sendFlit
  dsimp only
  refine ((s.modRouter_frame r fun x => { x with held := sendFrom a x.held }).trans (fillPort_frame _ r a.input)).trans ?_
  split
  · exact modRouter_frame _ _ _
  · refine .ite ?_ .refl
    exact ⟨rfl, fun p m => by cases p <;> first | exact absurd (by decide) m | rfl⟩

/-! ### The arbiter of row memory (R216 to R225) -/

theorem modArb_frame (k : Nat) (f : Arbiter → Arbiter) : ChangesOnly [.clusters] s (s.modArb k f) := modCl_frame _ _ _

theorem askRows_frame (k key : Nat) (qs : List RowRequest) : ChangesOnly [.clusters] s (s.askRows k key qs) :=
  .ite .refl (modArb_frame _ _ _)

theorem traffic_frame (k r first n : Nat) (w : Bool) : ChangesOnly [.clusters] s (s.traffic k r first n w) := askRows_frame _ _ _ _

theorem askRow_frame (k key row : Nat) (w : Bool) : ChangesOnly [.clusters] s (s.askRow k key row w) := modArb_frame _ _ _

/-- What the arbiter of a cluster changes: it, and its page's counters. -/
def arbParts : List Part := [.pages, .clusters]

theorem countUnits_frame (k p t : Nat) : ChangesOnly arbParts s (s.countUnits k p t) := by
  unfold countUnits
  dsimp only
  split
  · exact .refl
  · exact .ite .refl (((s.count_frame _ _ _).mono (by decide)).andThen (modArb_frame _ _ _) (by decide))

theorem releaseHeld_frame (k t : Nat) : ChangesOnly arbParts s (s.releaseHeld k t) := by
  refine ChangesOnly.foldl (fun u x => ?_) _ _
  exact .ite .refl (((u.count_frame _ _ _).mono (by decide)).andThen (modArb_frame _ _ _) (by decide))

theorem countWait_frame (k p r wait : Nat) : ChangesOnly [.pages] s (s.countWait k p r wait) :=
  (s.count_frame _ _ _).trans (modPage_frame _ _ _)

theorem grant_frame (k p t key : Nat) (x : ArbRequest) (hi un : Bool) : ChangesOnly arbParts s (s.grant k p t key x hi un) := by
  have a : ChangesOnly arbParts s ((s.countUnits k p t).countWait k p (arbId key) (t - x.since)) :=
    (s.countUnits_frame k p t).andThen (countWait_frame _ _ _ _ _) (by decide)
  have b := a.trans (ChangesOnly.ite (c := ((s.countUnits k p t).countWait k p (arbId key) (t - x.since)).mayUse k key (1 - p) x.req = true)
    ((countWait_frame _ k (1 - p) (arbId key) (t - x.since)).mono (by decide)) .refl)
  exact (b.andThen (count_frame _ _ _ _) (by decide)).andThen (modArb_frame _ _ _) (by decide)

theorem cutBurst_frame (k p t : Nat) : ChangesOnly arbParts s (s.cutBurst k p t) := by
  unfold cutBurst
  dsimp only
  split
  · exact .refl
  · exact .ite ((((s.report_frame _ _ _ _).trans (count_frame _ _ _ _)).mono (by decide)).andThen (modArb_frame _ _ _) (by decide)) .refl

theorem decidePort_frame (k p t : Nat) (un : Bool) : ChangesOnly arbParts s (s.decidePort k p t un) := by
  unfold decidePort
  refine .ite .refl ?_
  dsimp only
  split
  · exact cutBurst_frame _ _ _ _
  · split
    · exact cutBurst_frame _ _ _ _
    · exact (cutBurst_frame _ _ _ _).trans (grant_frame _ _ _ _ _ _ _ _)

theorem arbCycle_frame (k t : Nat) (un : Nat → Bool) : ChangesOnly arbParts s (s.arbCycle k t un) := by
  have a := ((s.modArb_frame k fun a => (a.retire t).issue t).mono (qs := arbParts) (by decide)).trans (releaseHeld_frame _ k t)
  have b := a.trans (decidePort_frame _ k 0 t (un 0))
  exact b.trans (decidePort_frame _ k 1 t (un 1))

theorem countTables_frame (k t n : Nat) : ChangesOnly arbParts s (s.countTables k t n) := by
  have c : ∀ (u : State) (e : Nat), ChangesOnly arbParts u (u.count (pgArbiter k) e n) := fun u e =>
    (u.count_frame _ _ _).mono (by decide)
  unfold countTables
  dsimp only
  have a := ChangesOnly.ite (c := (((s.cl k).arb.waiting t).filter fun x => x.2.write || x.2.readForWrite).any (·.1 ≤ 4) = true)
    (c s 144) .refl
  exact a.trans (.ite (c _ _) .refl)

theorem settleFuel_frame (k t : Nat) : ∀ (n : Nat) (s : State), ChangesOnly arbParts s (settleFuel k t n s)
  | 0, _ => .refl
  | n + 1, s => by
    unfold settleFuel
    dsimp only
    refine .ite .refl (.ite ((s.modArb_frame _ _).mono (by decide)) ?_)
    exact (((s.arbCycle_frame _ _ _).trans (countTables_frame _ _ _ _)).andThen (modArb_frame _ _ _) (by decide)).trans
      (settleFuel_frame k t n _)

/-- Settling an arbiter changes its cluster and pages, and no time passes. -/
theorem settleArb_frame (k : Nat) : ChangesOnly arbParts s (s.settleArb k) :=
  ((settleFuel_frame k _ _ s).trans (countUnits_frame _ _ _ _)).trans (countUnits_frame _ _ _ _)

theorem settleArbs_frame (ks : List Nat) : ChangesOnly arbParts s (s.settleArbs ks) := .foldl (fun u k => u.settleArb_frame k) _ _

theorem settledFor_frame (n : Nat) : ChangesOnly arbParts s (s.settledFor n) := by
  unfold settledFor
  split
  · exact .ite (settleArb_frame _ _) .refl
  · exact .refl

theorem dropRequests_frame (k : Nat) (ks : List Nat) (w : Bool) : ChangesOnly arbParts s (s.dropRequests k ks w) := by
  unfold dropRequests
  dsimp only
  refine ChangesOnly.andThen ?_ (modArb_frame _ _ _) (by decide)
  refine (s.settleArb_frame k).trans (ChangesOnly.foldl (fun u p => ?_) _ _)
  exact .ite ((u.countUnits_frame _ _ _).andThen (modArb_frame _ _ _) (by decide)) .refl

theorem bookGrant_frame (q : GrantRequest) (b : BitVec 48) (f : Bool) : ChangesOnly [.pages, .bridle] s (s.bookGrant q b f) := by
  have a := ((s.modBridle_frame fun r => { r with
    bookings := r.bookings ++ [⟨q.ctx, q.region, q.peak, q.mean, b⟩], request := some { q with granted := some b } }).mono
      (qs := [.pages, .bridle]) (by decide)).andThen (count_frame _ pgBridle 0 1) (by decide)
  exact .ite (a.andThen (count_frame _ _ _ _) (by decide)) a

theorem wantForecast_frame (level : Nat) : ChangesOnly [.pages, .bridle] s (s.wantForecast level) :=
  ((s.modBridle_frame _).mono (by decide)).andThen (raiseEvent_frame _ _ _) (by decide)

theorem dropForecast_frame : ChangesOnly [.pages, .bridle] s s.dropForecast :=
  ((s.modBridle_frame _).mono (by decide)).andThen (dropEvent_frame _ _ _) (by decide)

theorem forecastPosted_frame (level : Nat) (f : BitVec 48) : ChangesOnly [.pages, .bridle] s (s.forecastPosted level f) := by
  unfold forecastPosted
  split
  · exact .refl
  · refine s.dropForecast_frame.trans ?_
    dsimp only
    split
    · exact .ite (bookGrant_frame _ _ _ _) .refl
    · exact .refl

theorem regrade_frame : ChangesOnly [.clusters, .bridle] s s.regrade :=
  ((s.modLimiter_frame _).mono (by decide)).andThen (modBridle_frame _ _) (by decide)

theorem unbook_frame (r : Nat) : ChangesOnly [.pages, .clusters, .bridle] s (s.unbook r) := by
  unfold unbook
  have a : ∀ f, ChangesOnly [.pages, .clusters, .bridle] s (s.modBridle f) := fun f => (s.modBridle_frame f).mono (by decide)
  exact (ChangesOnly.ite ((a _).andThen (dropForecast_frame _) (by decide)) (a _)).andThen (regrade_frame _) (by decide)

theorem noteFull_frame (x : Nat) : ChangesOnly [.pages, .host] s (s.noteFull x) :=
  .ite (((s.pulse_frame _ _).mono (by decide)).andThen (modCtx_frame _ _ _) (by decide)) .refl

theorem complete_frame (x : Nat) (seq : W32) (status imm : Nat) : ChangesOnly [.pages, .host] s (s.complete x seq status imm) := by
  unfold complete
  split
  · exact .refl
  · exact ((s.modCtx_frame _ _).mono (by decide)).trans (noteFull_frame _ _)

theorem refuseDoorbell_frame (req x code v : Nat) : ChangesOnly [.pages] s (s.refuseDoorbell req x code v) :=
  ((s.pulse_frame _ _).trans (count_frame _ _ _ _)).trans (report_frame _ _ _ _ _)

/-! ### Requests to memory -/

/-- A lookup changes the cache and its counters alone. -/
theorem lookUp_frame (stack loc n hint : Nat) (w : Bool) : ChangesOnly [.pages, .mem] s (s.lookUp stack loc n hint w).1 := by
  unfold lookUp
  refine foldl_fst (fun acc line => ?_) _ _
  have a : ∀ l : List CacheLine, ChangesOnly [.pages, .mem] acc.1
      { acc.1 with mem := { acc.1.mem with cache := SMap.put acc.1.mem.cache (stack / 3) l } } := fun l =>
    ⟨rfl, fun p m => by cases p <;> first | exact absurd (by decide) m | rfl⟩
  have c : ∀ (u : State) (e : Nat), ChangesOnly [.pages, .mem] u (u.count (pgReuse (stack / 3)) e 1) := fun u e =>
    (u.count_frame _ _ _).mono (by decide)
  exact (((a _).trans (c _ _)).trans (.ite (c _ _) .refl)).trans (.ite (c _ _) .refl)

theorem translate_frame (x p : Nat) : ChangesOnly [.pages, .host, .moved] s (s.translate x p).1 := by
  unfold translate
  split
  · exact .refl
  · split
    · exact .refl
    · dsimp only
      split
      · refine ((s.charge_frame pgCxl x 14 8).mono (by decide)).trans ?_
        exact ⟨rfl, fun p m => by cases p <;> first | exact absurd (by decide) m | rfl⟩
      · exact (s.charge_frame _ _ _ _).mono (by decide)

theorem hostAddr_frame (x a : Nat) (w : Bool) : ChangesOnly [.pages, .host, .moved] s (s.hostAddr x a w).1 := by
  unfold hostAddr
  dsimp only
  split <;> exact translate_frame _ _ _

theorem refuseRemote_frame (k : Nat) : ChangesOnly [.pages] s (s.refuseRemote k) :=
  (s.pulse_frame _ _).trans (count_frame _ _ _ _)

theorem remoteReadOp_frame (x a n : Nat) : ChangesOnly [.pages, .clusters, .moved] s (s.remoteReadOp x a n).1 := by
  unfold remoteReadOp
  split
  · dsimp only
    split
    · exact (s.refuseRemote_frame _).mono (by decide)
    · split
      · exact (((s.traffic_frame _ _ _ _ _).mono (by decide)).andThen (count_frame _ _ _ _) (by decide)).andThen
          (charge_frame _ _ _ _ _) (by decide)
      · exact (s.refuseRemote_frame _).mono (by decide)
  · exact .refl

/-- What a read may change: no byte of device memory. -/
def readParts : List Part := [.pages, .clusters, .mem, .host, .moved]

theorem memReadOp_frame (x hint a n : Nat) : ChangesOnly readParts s (s.memReadOp x hint a n).1 := by
  unfold memReadOp
  dsimp only
  split
  · split
    · exact .refl
    · exact (((s.lookUp_frame _ _ _ _ _).mono (by decide)).andThen (charge_frame _ _ _ _ _) (by decide)).andThen
        (count_frame _ _ _ _) (by decide)
  · split
    · exact .refl
    · exact (s.charge_frame _ _ _ _).mono (by decide)
  · split
    · exact ((s.hostAddr_frame _ _ _).mono (by decide)).andThen (charge_frame _ _ _ _ _) (by decide)
    · exact (s.hostAddr_frame _ _ _).mono (by decide)
  · exact (s.remoteReadOp_frame _ _ _).mono (by decide)
  · exact .refl

theorem fetch_frame (x hint : Nat) : ∀ (fuel a n : Nat) (s : State), ChangesOnly readParts s (s.fetch x hint fuel a n).s
  | 0, _, _, _ => .refl
  | fuel + 1, a, n, s => by
    unfold fetch
    split
    · exact .refl
    · dsimp only
      split
      · exact memReadOp_frame _ _ _ _ _
      · exact (memReadOp_frame _ _ _ _ _).trans (fetch_frame x hint fuel _ _ _)

theorem fetchBytes_frame (x hint a n : Nat) : ChangesOnly readParts s (s.fetchBytes x hint a n).s := fetch_frame _ _ _ _ _ _

theorem arriveIf_frame (k h : Nat) (on poison : Bool) : ChangesOnly [.pages, .clusters] s (s.arriveIf k h on poison) :=
  .ite (arrive_frame _ _ _ _) .refl

theorem writeRows_frame (k h first : Nat) (on : Bool) (rows : List Row) :
    ChangesOnly [.pages, .clusters] s (s.writeRows k h first on rows) :=
  .foldl (fun u _ => ((u.modCl_frame _ _).mono (by decide)).trans (arriveIf_frame _ _ _ _ _)) _ _

theorem completeMessage_frame (k h first rows : Nat) : ChangesOnly [.pages, .clusters] s (s.completeMessage k h first rows) :=
  (s.arrive_frame _ _ _).andThen (modCl_frame _ _ _) (by decide)

theorem landMessage_frame (k h m row : Nat) (rows : List Row) :
    ChangesOnly [.pages, .clusters] s (s.landMessage k h m row rows) := by
  unfold landMessage
  have a : ChangesOnly [.pages, .clusters] s (rows.zipIdx.foldl (fun s x => s.modCl k (·.setRow (row + x.2) x.1)) s) :=
    .foldl (fun u _ => (u.modCl_frame _ _).mono (by decide)) _ _
  refine a.trans ?_
  dsimp only
  split
  · exact .refl
  · refine .ite (((modCl_frame _ _ _).mono (by decide)).trans (completeMessage_frame _ _ _ _ _))
      ((modCl_frame _ _ _).mono (by decide))

/-- What a write may change. -/
def writeParts : List Part := [.pages, .clusters, .mem, .host, .moved]

/-- What ends a remote write: its counts, and the cluster's activity. -/
theorem remoteEnd_frame (k c x n m : Nat) :
    ChangesOnly writeParts s (((s.count (pgRowmem k) c n).charge (pgRowmem k) x 16 m).active k) :=
  (((s.count_frame _ _ _).mono (by decide)).andThen (charge_frame _ _ _ _ _) (by decide)).andThen (active_frame _ _) (by decide)

theorem remoteWriteOp_frame (x a : Nat) (ws : List Word256) (m : Bool) : ChangesOnly writeParts s (s.remoteWriteOp x a ws m).1 := by
  unfold remoteWriteOp
  split
  · dsimp only
    split
    · exact (s.refuseRemote_frame _).mono (by decide)
    · split
      · exact (((s.traffic_frame _ _ _ _ _).mono (by decide)).andThen (writeRows_frame _ _ _ _ _ _) (by decide)).trans
          (remoteEnd_frame _ _ _ _ _ _)
      · exact (((s.traffic_frame _ _ _ _ _).mono (by decide)).andThen (landMessage_frame _ _ _ _ _ _) (by decide)).trans
          (remoteEnd_frame _ _ _ _ _ _)
      · exact (s.refuseRemote_frame _).mono (by decide)
  · exact .refl

theorem hostPut_frame (h : Nat) (ws : List Word256) (m : Option (BitVec 512)) : ChangesOnly [.host] s (s.hostPut h ws m) :=
  .foldl (fun u _ => .foldl (fun v _ => .ite (v.hostWrite_frame _ _) .refl) _ u) _ s

theorem putWords_frame (m : DeviceMemory) : ChangesOnly [.mem] s { s with mem := m } :=
  ⟨rfl, fun p m => by cases p <;> first | exact absurd (by decide) m | rfl⟩

theorem memWriteOp_frame (x hint a : Nat) (ws : List Word256) (m : Option (BitVec 512)) :
    ChangesOnly writeParts s (s.memWriteOp x hint a ws m).1 := by
  unfold memWriteOp
  dsimp only
  split
  · split
    · exact .refl
    · exact (((s.lookUp_frame _ _ _ _ _).mono (by decide)).andThen (putWords_frame _ _) (by decide)).andThen
        (charge_frame _ _ _ _ _) (by decide)
  · split
    · exact .refl
    · exact ((s.putWords_frame _).mono (by decide)).andThen (charge_frame _ _ _ _ _) (by decide)
  · split
    · refine ((((s.hostAddr_frame x _ true).mono (by decide)).andThen (hostPut_frame _ _ _ _) (by decide)).andThen
        (charge_frame _ _ _ _ _) (by decide)).trans (.ite ((count_frame _ _ _ _).mono (by decide)) .refl)
    · exact (s.hostAddr_frame _ _ _).mono (by decide)
  · exact remoteWriteOp_frame _ _ _ _ _
  · exact .refl

theorem store_frame (x hint : Nat) (poison : List Nat) : ∀ (fuel a : Nat) (bs : List Byte) (s : State),
    ChangesOnly writeParts s (s.store x hint poison fuel a bs).1
  | 0, _, _, _ => .refl
  | fuel + 1, a, bs, s => by
    unfold store
    split
    · exact .refl
    · dsimp only
      split
      · exact memWriteOp_frame _ _ _ _ _ _
      · exact (memWriteOp_frame _ _ _ _ _ _).trans (store_frame x hint poison fuel _ _ _)

theorem storeBytes_frame (x hint a : Nat) (bs : List Byte) (poison : List Nat) :
    ChangesOnly writeParts s (s.storeBytes x hint a bs poison).1 := store_frame _ _ _ _ _ _ _
end State

end Sys2Proof.Machine
end

