-- ==== Sys2Proof/Laws/Links.lean ====
section
/-! SUPPORT. Frames of a link (R432): the CRC reads bytes 0 to 395 alone, and a stamped frame carries the CRC of its bytes. -/
namespace Sys2Proof.Machine

/-- What lies above `n` bytes is not among them. -/
theorem toBytes_add (n k : Nat) : ∀ w, toBytes n (w + 256 ^ n * k) = toBytes n w := by
  induction n with
  | zero => intro w; rfl
  | succ n ih =>
    intro w
    have h : w + 256 ^ (n + 1) * k = w + 256 * (256 ^ n * k) := by rw [Nat.pow_succ, Nat.mul_comm (256 ^ n) 256, Nat.mul_assoc]
    have e : BitVec.ofNat 8 (w + 256 * (256 ^ n * k)) = BitVec.ofNat 8 w := by
      apply BitVec.eq_of_toNat_eq; simp
    simp only [toBytes, h, e, Nat.add_mul_div_left _ _ (show 0 < 256 by decide), ih]

/-- The CRC does not read the frame's last four bytes. -/
theorem frameCrc_add (w k : Nat) : frameCrc (w + k <<< 3168) = frameCrc w := by
  have h : w + k <<< 3168 = w + 256 ^ 396 * k := by
    rw [Nat.shiftLeft_eq, show (256 : Nat) = 2 ^ 8 from rfl, ← Nat.pow_mul, Nat.mul_comm]
  rw [frameCrc, h, toBytes_add, frameCrc]

theorem crc32Bits_lt (n : Nat) : ∀ c, c < 2 ^ 32 → crc32Bits n c < 2 ^ 32 := by
  induction n with
  | zero => intro c h; exact h
  | succ n ih =>
    intro c h
    apply ih
    split
    · exact Nat.xor_lt_two_pow (by omega) (by decide)
    · omega

/-- A CRC is a word of 32 bits. -/
theorem crc32_lt (bs : List Byte) : crc32 bs < 2 ^ 32 := by
  have h : ∀ (bs : List Byte) c, c < 2 ^ 32 → bs.foldl (fun c b => crc32Bits 8 (c ^^^ b.toNat)) c < 2 ^ 32 := by
    intro bs
    induction bs with
    | nil => intro c h; exact h
    | cons b bs ih =>
      intro c h
      exact ih _ (crc32Bits_lt 8 _ (Nat.xor_lt_two_pow h (by have := b.isLt; omega)))
  exact Nat.xor_lt_two_pow (h bs _ (by decide)) (by decide)

/-- A frame of 396 bytes and a word above them, read back. -/
theorem frame_fields (w k : Nat) (hw : w < 2 ^ 3168) (hk : k < 2 ^ 32) :
    (BitVec.ofNat 3200 (w + k <<< 3168)).toNat = w + k <<< 3168 ∧ field (w + k <<< 3168) 3199 3168 = k := by
  rw [Nat.shiftLeft_eq]
  generalize hp : (2 : Nat) ^ 3168 = p at *
  have hp0 : 0 < p := by rw [← hp]; exact Nat.two_pow_pos _
  have hlt : w + k * p < 2 ^ 3200 := by
    have : (2 : Nat) ^ 3200 = 2 ^ 32 * p := by rw [← hp, ← Nat.pow_add]
    have h2 : (k + 1) * p ≤ 2 ^ 32 * p := Nat.mul_le_mul_right _ hk
    rw [Nat.add_mul, Nat.one_mul] at h2
    omega
  refine ⟨by rw [BitVec.toNat_ofNat, Nat.mod_eq_of_lt hlt], ?_⟩
  rw [field, Nat.shiftRight_eq_div_pow, hp, Nat.add_mul_div_right _ _ hp0, Nat.div_eq_of_lt hw, Nat.zero_add]
  exact Nat.mod_eq_of_lt hk

/-- What lies above a field does not change it. -/
theorem field_add (w k n hi lo : Nat) (h : hi < n) : field (w + k <<< n) hi lo = field w hi lo := by
  simp only [field, Nat.shiftRight_eq_div_pow, Nat.shiftLeft_eq]
  by_cases c : lo ≤ hi + 1
  · have e : k * 2 ^ n = 2 ^ lo * (2 ^ (hi + 1 - lo) * (k * 2 ^ (n - (hi + 1)))) := by
      rw [← Nat.mul_assoc, ← Nat.pow_add, Nat.mul_left_comm, ← Nat.pow_add]
      congr 2
      omega
    rw [e, Nat.add_mul_div_left _ _ (Nat.two_pow_pos lo), Nat.add_mul_mod_self_left]
  · rw [show hi + 1 - lo = 0 by omega, Nat.pow_zero, Nat.mod_one, Nat.mod_one]

/-- A stamped frame passes its CRC (R432). -/
theorem frameCrc_stampFrame (w ack : Nat) (nak : Bool) (h : w + ack <<< 64 + ofBool nak <<< 63 < 2 ^ 3168) :
    frameCrc (stampFrame w ack nak).toNat = field (stampFrame w ack nak).toNat 3199 3168 := by
  have f := frame_fields _ _ h (crc32_lt (toBytes 396 (w + ack <<< 64 + ofBool nak <<< 63)))
  rw [stampFrame]
  simp only [frameCrc] at *
  rw [f.1, f.2]
  exact frameCrc_add _ _

/-- A stamped frame has the fields of the frame that was stamped (R432). -/
theorem field_stampFrame (w ack : Nat) (nak : Bool) (hi lo : Nat) (h : w + ack <<< 64 + ofBool nak <<< 63 < 2 ^ 3168)
    (hh : hi < 3168) : field (stampFrame w ack nak).toNat hi lo = field (w + ack <<< 64 + ofBool nak <<< 63) hi lo := by
  have f := frame_fields _ _ h (crc32_lt (toBytes 396 (w + ack <<< 64 + ofBool nak <<< 63)))
  rw [stampFrame]
  simp only [frameCrc] at *
  rw [f.1, field_add _ _ _ _ _ hh]

/-- A frame whose CRC is not that of its bytes fails (R432). -/
theorem frameCrc_ne (w k : Nat) (hw : w < 2 ^ 3168) (hk : k < 2 ^ 32) (h : frameCrc w ≠ k) :
    frameCrc (BitVec.ofNat 3200 (w + k <<< 3168)).toNat ≠ field (BitVec.ofNat 3200 (w + k <<< 3168)).toNat 3199 3168 := by
  have f := frame_fields w k hw hk
  rwa [f.1, f.2, frameCrc_add]

/-- So does one whose CRC is one above. -/
theorem frameCrc_ne_succ (w : Nat) (hw : w < 2 ^ 3168) :
    frameCrc (BitVec.ofNat 3200 (w + ((frameCrc w + 1) % 2 ^ 32) <<< 3168)).toNat
      ≠ field (BitVec.ofNat 3200 (w + ((frameCrc w + 1) % 2 ^ 32) <<< 3168)).toNat 3199 3168 := by
  apply frameCrc_ne w _ hw (Nat.mod_lt _ (by decide))
  have : frameCrc w < 2 ^ 32 := crc32_lt _
  omega

end Sys2Proof.Machine
end

