-- ==== Sys2Proof/Laws/Maps.lean ====
section
/-! SUPPORT. The sparse maps: what a key reads as after an update. -/
namespace Sys2Proof.Machine.SMap
variable {α : Type}

@[simp] theorem get?_nil (k : Nat) : get? ([] : SMap α) k = none := rfl

@[simp] theorem get?_put_self (m : SMap α) (k : Nat) (v : α) : get? (put m k v) k = some v := by
  induction m with
  | nil => simp [put, get?]
  | cons p m ih =>
    obtain ⟨j, a⟩ := p
    simp only [put]
    split
    · simp [get?]
    · split
      · simp [get?]
      · rename_i h _
        simp [get?, h, ih]

theorem get?_put_ne (m : SMap α) {k j : Nat} (v : α) (h : j ≠ k) : get? (put m k v) j = get? m j := by
  induction m with
  | nil => simp [put, get?, Ne.symm h]
  | cons p m ih =>
    obtain ⟨i, a⟩ := p
    simp only [put]
    split
    · rename_i e
      subst e
      simp [get?, Ne.symm h]
    · split
      · simp [get?, Ne.symm h]
      · simp only [get?, ih]

@[simp] theorem getD_put_self (m : SMap α) (k : Nat) (v d : α) : getD (put m k v) k d = v := by simp [getD]

@[simp] theorem get?_del_self (m : SMap α) (k : Nat) : get? (del m k) k = none := by
  induction m with
  | nil => rfl
  | cons p m ih =>
    obtain ⟨j, a⟩ := p
    by_cases h : j = k
    · simpa [del, h] using ih
    · simp only [del, List.filter_cons, h, ne_eq, not_false_eq_true, decide_true, if_true, get?, if_false]
      exact ih

theorem get?_del_ne (m : SMap α) {k j : Nat} (h : j ≠ k) : get? (del m k) j = get? m j := by
  induction m with
  | nil => rfl
  | cons p m ih =>
    obtain ⟨i, a⟩ := p
    by_cases hi : i = k
    · subst hi
      simpa [del, get?, Ne.symm h] using ih
    · simp only [del, List.filter_cons, hi, ne_eq, not_false_eq_true, decide_true, if_true, get?]
      split
      · rfl
      · exact ih

theorem getD_put_ne (m : SMap α) {k j : Nat} (v d : α) (h : j ≠ k) : getD (put m k v) j d = getD m j d := by
  simp [getD, get?_put_ne m v h]

@[simp] theorem getD_mod_self (m : SMap α) (k : Nat) (d : α) (f : α → α) : getD (mod m k d f) k d = f (getD m k d) := by
  simp [mod]

theorem getD_mod_ne (m : SMap α) {k j : Nat} (d e : α) (f : α → α) (h : j ≠ k) : getD (mod m k d f) j e = getD m j e := by
  simp [mod, getD_put_ne m _ e h]

end Sys2Proof.Machine.SMap
end

