-- ==== Sys2Proof/Laws/Memory.lean ====
section
/-! SUPPORT. Memory as a list of cells: a read after a write, and every operation keeps the canonical form (log 5). -/
namespace Sys2Proof.Machine

/-- Every address of a memory lies above `a`. -/
theorem memWf_cons {b : Nat} {w : Byte} {m : List Host.Cell} :
    memWf ((b, w) :: m) ↔ w ≠ 0 ∧ (∀ c ∈ m, b < c.1) ∧ memWf m := by
  constructor
  · rintro ⟨h1, h2⟩
    rw [List.pairwise_cons] at h1
    exact ⟨h2 (b, w) (by simp), h1.1, h1.2, fun c hc => h2 c (by simp [hc])⟩
  · rintro ⟨h1, h2, h3, h4⟩
    refine ⟨List.pairwise_cons.mpr ⟨h2, h3⟩, ?_⟩
    intro c hc
    rcases List.mem_cons.mp hc with rfl | hc
    · exact h1
    · exact h4 c hc

/-- The addresses of a memory after a write are the old ones and the written one. -/
theorem memWrite_mem {m : List Host.Cell} {a : Nat} {v : Byte} {c : Host.Cell} (h : c ∈ memWrite m a v) :
    c.1 = a ∨ c ∈ m := by
  induction m with
  | nil =>
    simp only [memWrite] at h
    split at h
    · simp at h
    · left
      simp only [List.mem_singleton] at h
      simp [h]
  | cons p m ih =>
    obtain ⟨b, w⟩ := p
    simp only [memWrite] at h
    split at h
    · split at h
      · exact .inr (by simp [h])
      · rcases List.mem_cons.mp h with rfl | h
        · exact .inl rfl
        · exact .inr (by simp [h])
    · split at h
      · split at h
        · exact .inr h
        · rcases List.mem_cons.mp h with rfl | h
          · exact .inl rfl
          · exact .inr h
      · rcases List.mem_cons.mp h with rfl | h
        · exact .inr (by simp)
        · rcases ih h with h | h
          · exact .inl h
          · exact .inr (by simp [h])

/-- A write keeps the canonical form. -/
theorem memWrite_wf {m : List Host.Cell} (a : Nat) (v : Byte) (h : memWf m) : memWf (memWrite m a v) := by
  induction m with
  | nil =>
    simp only [memWrite]
    split
    · exact h
    · rename_i hv
      exact memWf_cons.mpr ⟨hv, by simp, h⟩
  | cons p m ih =>
    obtain ⟨b, w⟩ := p
    obtain ⟨hw, hlt, hm⟩ := memWf_cons.mp h
    simp only [memWrite]
    split
    · rename_i e
      subst e
      split
      · exact hm
      · rename_i hv
        exact memWf_cons.mpr ⟨hv, hlt, hm⟩
    · split
      · rename_i hab
        split
        · exact h
        · rename_i hv
          refine memWf_cons.mpr ⟨hv, ?_, h⟩
          intro c hc
          rcases List.mem_cons.mp hc with rfl | hc
          · exact hab
          · exact Nat.lt_trans hab (hlt c hc)
      · rename_i hne hge
        refine memWf_cons.mpr ⟨hw, ?_, ih hm⟩
        intro c hc
        rcases memWrite_mem hc with hc | hc
        · omega
        · exact hlt c hc

/-- Writing a list of bytes keeps the canonical form. -/
theorem memWriteList_wf {m : List Host.Cell} (a : Nat) (bs : List Byte) (h : memWf m) : memWf (memWriteList m a bs) := by
  induction bs generalizing m a with
  | nil => exact h
  | cons b bs ih => exact ih (a + 1) (memWrite_wf a b h)

/-- An address below every listed one reads as zero. -/
theorem memRead_below {m : List Host.Cell} {a : Nat} (h : ∀ c ∈ m, a < c.1) : memRead m a = 0 := by
  cases m with
  | nil => rfl
  | cons p m =>
    obtain ⟨b, w⟩ := p
    have hb : a < b := h (b, w) (by simp)
    simp [memRead, Nat.ne_of_gt hb, hb]

/-- A byte reads as what was written there. -/
theorem memRead_memWrite_self {m : List Host.Cell} (a : Nat) (v : Byte) (h : memWf m) : memRead (memWrite m a v) a = v := by
  induction m with
  | nil =>
    simp only [memWrite]
    split
    · rename_i e
      simp [memRead, e]
    · simp [memRead]
  | cons p m ih =>
    obtain ⟨b, w⟩ := p
    obtain ⟨hw, hlt, hm⟩ := memWf_cons.mp h
    simp only [memWrite]
    split
    · rename_i e
      subst e
      split
      · rename_i e
        rw [e]
        exact memRead_below hlt
      · simp [memRead]
    · rename_i hne
      split
      · rename_i hab
        split
        · rename_i e
          simp [memRead, hne, hab, e]
        · simp [memRead]
      · rename_i hge
        simp [memRead, hne, hge, ih hm]

/-- A write leaves every other byte as it was. -/
theorem memRead_memWrite_ne {m : List Host.Cell} {a b : Nat} (v : Byte) (h : memWf m) (hab : b ≠ a) :
    memRead (memWrite m a v) b = memRead m b := by
  induction m with
  | nil =>
    simp only [memWrite]
    split
    · rfl
    · simp only [memRead, Ne.symm hab, if_false]
      split <;> rfl
  | cons p m ih =>
    obtain ⟨c, w⟩ := p
    obtain ⟨hw, hlt, hm⟩ := memWf_cons.mp h
    simp only [memWrite]
    split
    · rename_i e
      subst e
      split
      · simp only [memRead, Ne.symm hab, if_false]
        split
        · rename_i hb
          exact memRead_below fun d hd => Nat.lt_trans hb (hlt d hd)
        · rfl
      · simp [memRead, Ne.symm hab]
    · rename_i hne
      split
      · rename_i hac
        split
        · rfl
        · simp only [memRead, Ne.symm hab, if_false]
          split
          · rename_i hba
            have : b < c := Nat.lt_trans hba hac
            simp [Nat.ne_of_gt this, this]
          · rfl
      · simp only [memRead]
        split
        · rfl
        · split
          · rfl
          · exact ih hm

/-- The bytes outside a written range are as before. -/
theorem memRead_memWriteList_outside {m : List Host.Cell} (a : Nat) (bs : List Byte) {b : Nat} (h : memWf m)
    (hb : b < a ∨ a + bs.length ≤ b) : memRead (memWriteList m a bs) b = memRead m b := by
  induction bs generalizing m a with
  | nil => rfl
  | cons v bs ih =>
    have hl : (v :: bs).length = bs.length + 1 := by simp
    rw [memWriteList, ih (a + 1) (memWrite_wf a v h) (by omega), memRead_memWrite_ne v h (by omega)]

/-- Byte `i` of a written range reads as the i-th byte written. -/
theorem memRead_memWriteList_inside {m : List Host.Cell} (a : Nat) (bs : List Byte) (i : Nat) (h : memWf m)
    (hi : i < bs.length) : memRead (memWriteList m a bs) (a + i) = bs[i] := by
  induction bs generalizing m a i with
  | nil => simp at hi
  | cons v bs ih =>
    cases i with
    | zero =>
      rw [memWriteList, memRead_memWriteList_outside (a + 1) bs (memWrite_wf a v h) (by omega)]
      simp [memRead_memWrite_self a v h]
    | succ i =>
      have hi' : i < bs.length := by simpa using hi
      rw [memWriteList, show a + (i + 1) = a + 1 + i by omega, ih (a + 1) i (memWrite_wf a v h) hi']
      simp

/-- Reset's memories are in the canonical form. -/
theorem reset_memWf : memWf State.reset.mem.bytes ∧ memWf State.reset.host.bytes := by
  refine ⟨⟨?_, ?_⟩, ⟨?_, ?_⟩⟩ <;> simp [State.reset]

end Sys2Proof.Machine
end

