-- ==== Sys2Proof/Laws/Ops.lean ====
section
/-! SUPPORT. What the named operations read as after an update, and what each shared operation on a page does. -/
namespace Sys2Proof.Machine.State

variable (s : State)

/-! ### Reading a part after an update of it -/

@[simp] theorem page_modPage_self (n : Nat) (f : Page → Page) : (s.modPage n f).page n = f (s.page n) := by
  simp [modPage, page]

theorem page_modPage_ne {n m : Nat} (f : Page → Page) (h : m ≠ n) : (s.modPage n f).page m = s.page m := by
  simp [modPage, page, SMap.getD_mod_ne _ _ _ f h]

@[simp] theorem cl_modCl_self (k : Nat) (f : ClusterState → ClusterState) : (s.modCl k f).cl k = f (s.cl k) := by
  simp [modCl, cl]

theorem cl_modCl_ne {k j : Nat} (f : ClusterState → ClusterState) (h : j ≠ k) : (s.modCl k f).cl j = s.cl j := by
  simp [modCl, cl, SMap.getD_mod_ne _ _ _ f h]

@[simp] theorem core_modCore_self (k n : Nat) (f : CoreState → CoreState) : (s.modCore k n f).core k n = f (s.core k n) := by
  simp [modCore, core, ClusterState.modCore, ClusterState.core]

theorem core_modCore_ne {k n m : Nat} (f : CoreState → CoreState) (h : m ≠ n) : (s.modCore k n f).core k m = s.core k m := by
  simp [modCore, core, ClusterState.modCore, ClusterState.core, SMap.getD_mod_ne _ _ _ f h]

theorem cl_modCore_ne {k j n : Nat} (f : CoreState → CoreState) (h : j ≠ k) : (s.modCore k n f).cl j = s.cl j :=
  cl_modCl_ne s _ h

@[simp] theorem region_modRegion_self (r : Nat) (f : Region → Region) : (s.modRegion r f).region r = f (s.region r) := by
  simp [modRegion, region]

theorem region_modRegion_ne {r q : Nat} (f : Region → Region) (h : q ≠ r) : (s.modRegion r f).region q = s.region q := by
  simp [modRegion, region, SMap.getD_mod_ne _ _ _ f h]

@[simp] theorem cal_setCal_self (n : Nat) (es : List CalEntry) : (s.setCal n es).cal n = es := by simp [setCal, cal]

theorem cal_setCal_ne {n m : Nat} (es : List CalEntry) (h : m ≠ n) : (s.setCal n es).cal m = s.cal m := by
  simp [setCal, cal, SMap.getD_put_ne _ es _ h]

@[simp] theorem ctx_modCtx_self (x : Nat) (f : Context → Context) : (s.modCtx x f).ctx x = f (s.ctx x) := by
  simp [modCtx, ctx]

theorem ctx_modCtx_ne {x y : Nat} (f : Context → Context) (h : y ≠ x) : (s.modCtx x f).ctx y = s.ctx y := by
  simp [modCtx, ctx, SMap.getD_mod_ne _ _ _ f h]

@[simp] theorem cinchUnit_modCinch_self (u : Nat) (f : CinchUnit → CinchUnit) :
    (s.modCinch u f).cinchUnit u = f (s.cinchUnit u) := by
  simp [modCinch, cinchUnit]

theorem cinchUnit_modCinch_ne {u v : Nat} (f : CinchUnit → CinchUnit) (h : v ≠ u) :
    (s.modCinch u f).cinchUnit v = s.cinchUnit v := by
  simp [modCinch, cinchUnit, SMap.getD_mod_ne _ _ _ f h]

@[simp] theorem link_modLink_self (l : Nat) (f : Link → Link) : (s.modLink l f).link l = f (s.link l) := by
  simp [modLink, link]

theorem link_modLink_ne {l m : Nat} (f : Link → Link) (h : m ≠ l) : (s.modLink l f).link m = s.link m := by
  simp [modLink, link, SMap.getD_mod_ne _ _ _ f h]

@[simp] theorem router_modRouter_self (r : Nat) (f : RouterState → RouterState) :
    (s.modRouter r f).router r = f (s.router r) := by
  simp [modRouter, router]

@[simp] theorem source_modSource_self (n : Nat) (f : Source → Source) : (s.modSource n f).source n = f (s.source n) := by
  simp [modSource, source]

theorem source_modSource_ne {n m : Nat} (f : Source → Source) (h : m ≠ n) : (s.modSource n f).source m = s.source m := by
  simp [modSource, source, SMap.getD_mod_ne _ _ _ f h]

@[simp] theorem wakeQueue_modWake_self (t : Nat) (f : WakeQueue → WakeQueue) :
    (s.modWake t f).wakeQueue t = f (s.wakeQueue t) := by
  simp [modWake, wakeQueue]

/-! ### What an update of a page does (R36 to R42) -/

/-- Recording an error (R37): the page takes it, and the error event's latch. -/
theorem report_page (n c d e : Nat) :
    (s.report n c d e).page n = (s.page n).report s.clock c d e ∧
    ((s.report n c d e).page n).latch = (s.page n).latch ||| 1#32 ∧
    ((s.report n c d e).page n).counters = (s.page n).counters ∧ ((s.report n c d e).page n).regs = (s.page n).regs := by
  simp [report, Page.report]

/-- The first error of a cycle makes of the record what R37 says. -/
theorem report_err (n c d e : Nat) (h : (s.page n).errCycle ≠ s.clock + 1) :
    ((s.report n c d e).page n).err = errAfter (s.page n).err c d e := by
  simp [report, Page.report, errFold, h]

/-- A pulse event latches, holds its level for the cycle, and does nothing else (R9, R41, R42). -/
theorem pulse_page (n e : Nat) : (s.pulse n e).page n = (s.page n).drive s.clock (eventBit e) := by
  simp [pulse, Page.pulse]

@[simp] theorem drive_latch (g : Page) (c : Nat) (bits : W32) : (g.drive c bits).latch = g.latch ||| bits := rfl

/-- What is driven in a cycle counts as level in it. -/
theorem drivenAt_drive (g : Page) (c : Nat) (bits : W32) : (g.drive c bits).drivenAt c = g.drivenAt c ||| bits := by
  simp only [Page.drive, Page.drivenAt, if_true]
  split <;> simp

/-- A count changes one counter of one page (R38). -/
theorem count_counter (n c d : Nat) : ((s.count n c d).page n).counter c = (s.page n).counter c + BitVec.ofNat 64 d := by
  simp [count, Page.count, Page.counter]

theorem count_counter_ne (n : Nat) {c e : Nat} (d : Nat) (h : e ≠ c) :
    ((s.count n c d).page n).counter e = (s.page n).counter e := by
  simp [count, Page.count, Page.counter, SMap.getD_mod_ne _ _ _ _ h]

theorem count_err (n c d : Nat) : ((s.count n c d).page n).err = (s.page n).err := by simp [count, Page.count]

theorem count_latch (n c d : Nat) : ((s.count n c d).page n).latch = (s.page n).latch := by simp [count, Page.count]

/-- A stored register reads as what was written to it. -/
theorem reg_setReg (n o w d : Nat) : (s.setReg n o w).reg n o d = w % 2 ^ 32 := by
  simp [setReg, reg]

/-- Another register of the page reads as before. -/
theorem reg_setReg_ne (n : Nat) {o p : Nat} (w d : Nat) (h : p ≠ o) : (s.setReg n o w).reg n p d = s.reg n p d := by
  simp [setReg, reg, SMap.get?_put_ne _ _ h]

end Sys2Proof.Machine.State
end

