-- ==== Sys2Proof/Laws/State.lean ====
section
/-! SUPPORT. What the plain updates of the state leave as it is: one lemma per update and field, each true by computation, so
that no proof unfolds a record update. -/
namespace Sys2Proof.Machine.State

variable (s : State)

@[simp] theorem modPage_pending (n : Nat) (f : Page → Page) : (s.modPage n f).pending = s.pending := rfl
@[simp] theorem modPage_out (n : Nat) (f : Page → Page) : (s.modPage n f).out = s.out := rfl
@[simp] theorem modPage_clock (n : Nat) (f : Page → Page) : (s.modPage n f).clock = s.clock := rfl
@[simp] theorem modPage_beats (n : Nat) (f : Page → Page) : (s.modPage n f).beats = s.beats := rfl
@[simp] theorem modPage_mgmtClock (n : Nat) (f : Page → Page) : (s.modPage n f).mgmtClock = s.mgmtClock := rfl
@[simp] theorem modPage_freeCount (n : Nat) (f : Page → Page) : (s.modPage n f).freeCount = s.freeCount := rfl
@[simp] theorem modPage_irq (n : Nat) (f : Page → Page) : (s.modPage n f).irq = s.irq := rfl
@[simp] theorem modPage_mt (n : Nat) (f : Page → Page) : (s.modPage n f).mt = s.mt := rfl
@[simp] theorem modPage_cals (n : Nat) (f : Page → Page) : (s.modPage n f).cals = s.cals := rfl
@[simp] theorem modPage_clusters (n : Nat) (f : Page → Page) : (s.modPage n f).clusters = s.clusters := rfl
@[simp] theorem modPage_probes (n : Nat) (f : Page → Page) : (s.modPage n f).probes = s.probes := rfl
@[simp] theorem modPage_flights (n : Nat) (f : Page → Page) : (s.modPage n f).flights = s.flights := rfl
@[simp] theorem modPage_lanes (n : Nat) (f : Page → Page) : (s.modPage n f).lanes = s.lanes := rfl
@[simp] theorem modPage_regions (n : Nat) (f : Page → Page) : (s.modPage n f).regions = s.regions := rfl
@[simp] theorem modPage_mem (n : Nat) (f : Page → Page) : (s.modPage n f).mem = s.mem := rfl
@[simp] theorem modPage_host (n : Nat) (f : Page → Page) : (s.modPage n f).host = s.host := rfl
@[simp] theorem modPage_boot (n : Nat) (f : Page → Page) : (s.modPage n f).boot = s.boot := rfl
@[simp] theorem modPage_ident (n : Nat) (f : Page → Page) : (s.modPage n f).ident = s.ident := rfl
@[simp] theorem modPage_custody (n : Nat) (f : Page → Page) : (s.modPage n f).custody = s.custody := rfl
@[simp] theorem modPage_bridle (n : Nat) (f : Page → Page) : (s.modPage n f).bridle = s.bridle := rfl
@[simp] theorem modPage_mesh (n : Nat) (f : Page → Page) : (s.modPage n f).mesh = s.mesh := rfl
@[simp] theorem modPage_cinch (n : Nat) (f : Page → Page) : (s.modPage n f).cinch = s.cinch := rfl
@[simp] theorem modPage_wakes (n : Nat) (f : Page → Page) : (s.modPage n f).wakes = s.wakes := rfl
@[simp] theorem modPage_harness (n : Nat) (f : Page → Page) : (s.modPage n f).harness = s.harness := rfl
@[simp] theorem modPage_ready (n : Nat) (f : Page → Page) : (s.modPage n f).ready = s.ready := rfl
@[simp] theorem modPage_spares (n : Nat) (f : Page → Page) : (s.modPage n f).spares = s.spares := rfl
@[simp] theorem modPage_tests (n : Nat) (f : Page → Page) : (s.modPage n f).tests = s.tests := rfl
@[simp] theorem modPage_energy (n : Nat) (f : Page → Page) : (s.modPage n f).energy = s.energy := rfl
@[simp] theorem modPage_moved (n : Nat) (f : Page → Page) : (s.modPage n f).moved = s.moved := rfl

@[simp] theorem report_pending (n c d e : Nat) : (s.report n c d e).pending = s.pending := rfl
@[simp] theorem report_out (n c d e : Nat) : (s.report n c d e).out = s.out := rfl
@[simp] theorem report_clock (n c d e : Nat) : (s.report n c d e).clock = s.clock := rfl
@[simp] theorem report_beats (n c d e : Nat) : (s.report n c d e).beats = s.beats := rfl
@[simp] theorem report_mgmtClock (n c d e : Nat) : (s.report n c d e).mgmtClock = s.mgmtClock := rfl
@[simp] theorem report_freeCount (n c d e : Nat) : (s.report n c d e).freeCount = s.freeCount := rfl
@[simp] theorem report_irq (n c d e : Nat) : (s.report n c d e).irq = s.irq := rfl
@[simp] theorem report_mt (n c d e : Nat) : (s.report n c d e).mt = s.mt := rfl
@[simp] theorem report_cals (n c d e : Nat) : (s.report n c d e).cals = s.cals := rfl
@[simp] theorem report_clusters (n c d e : Nat) : (s.report n c d e).clusters = s.clusters := rfl
@[simp] theorem report_probes (n c d e : Nat) : (s.report n c d e).probes = s.probes := rfl
@[simp] theorem report_flights (n c d e : Nat) : (s.report n c d e).flights = s.flights := rfl
@[simp] theorem report_lanes (n c d e : Nat) : (s.report n c d e).lanes = s.lanes := rfl
@[simp] theorem report_regions (n c d e : Nat) : (s.report n c d e).regions = s.regions := rfl
@[simp] theorem report_mem (n c d e : Nat) : (s.report n c d e).mem = s.mem := rfl
@[simp] theorem report_host (n c d e : Nat) : (s.report n c d e).host = s.host := rfl
@[simp] theorem report_boot (n c d e : Nat) : (s.report n c d e).boot = s.boot := rfl
@[simp] theorem report_ident (n c d e : Nat) : (s.report n c d e).ident = s.ident := rfl
@[simp] theorem report_custody (n c d e : Nat) : (s.report n c d e).custody = s.custody := rfl
@[simp] theorem report_bridle (n c d e : Nat) : (s.report n c d e).bridle = s.bridle := rfl
@[simp] theorem report_mesh (n c d e : Nat) : (s.report n c d e).mesh = s.mesh := rfl
@[simp] theorem report_cinch (n c d e : Nat) : (s.report n c d e).cinch = s.cinch := rfl
@[simp] theorem report_wakes (n c d e : Nat) : (s.report n c d e).wakes = s.wakes := rfl
@[simp] theorem report_harness (n c d e : Nat) : (s.report n c d e).harness = s.harness := rfl
@[simp] theorem report_ready (n c d e : Nat) : (s.report n c d e).ready = s.ready := rfl
@[simp] theorem report_spares (n c d e : Nat) : (s.report n c d e).spares = s.spares := rfl
@[simp] theorem report_tests (n c d e : Nat) : (s.report n c d e).tests = s.tests := rfl
@[simp] theorem report_energy (n c d e : Nat) : (s.report n c d e).energy = s.energy := rfl
@[simp] theorem report_moved (n c d e : Nat) : (s.report n c d e).moved = s.moved := rfl

@[simp] theorem pulse_pending (n e : Nat) : (s.pulse n e).pending = s.pending := rfl
@[simp] theorem pulse_out (n e : Nat) : (s.pulse n e).out = s.out := rfl
@[simp] theorem pulse_clock (n e : Nat) : (s.pulse n e).clock = s.clock := rfl
@[simp] theorem pulse_beats (n e : Nat) : (s.pulse n e).beats = s.beats := rfl
@[simp] theorem pulse_mgmtClock (n e : Nat) : (s.pulse n e).mgmtClock = s.mgmtClock := rfl
@[simp] theorem pulse_freeCount (n e : Nat) : (s.pulse n e).freeCount = s.freeCount := rfl
@[simp] theorem pulse_irq (n e : Nat) : (s.pulse n e).irq = s.irq := rfl
@[simp] theorem pulse_mt (n e : Nat) : (s.pulse n e).mt = s.mt := rfl
@[simp] theorem pulse_cals (n e : Nat) : (s.pulse n e).cals = s.cals := rfl
@[simp] theorem pulse_clusters (n e : Nat) : (s.pulse n e).clusters = s.clusters := rfl
@[simp] theorem pulse_probes (n e : Nat) : (s.pulse n e).probes = s.probes := rfl
@[simp] theorem pulse_flights (n e : Nat) : (s.pulse n e).flights = s.flights := rfl
@[simp] theorem pulse_lanes (n e : Nat) : (s.pulse n e).lanes = s.lanes := rfl
@[simp] theorem pulse_regions (n e : Nat) : (s.pulse n e).regions = s.regions := rfl
@[simp] theorem pulse_mem (n e : Nat) : (s.pulse n e).mem = s.mem := rfl
@[simp] theorem pulse_host (n e : Nat) : (s.pulse n e).host = s.host := rfl
@[simp] theorem pulse_boot (n e : Nat) : (s.pulse n e).boot = s.boot := rfl
@[simp] theorem pulse_ident (n e : Nat) : (s.pulse n e).ident = s.ident := rfl
@[simp] theorem pulse_custody (n e : Nat) : (s.pulse n e).custody = s.custody := rfl
@[simp] theorem pulse_bridle (n e : Nat) : (s.pulse n e).bridle = s.bridle := rfl
@[simp] theorem pulse_mesh (n e : Nat) : (s.pulse n e).mesh = s.mesh := rfl
@[simp] theorem pulse_cinch (n e : Nat) : (s.pulse n e).cinch = s.cinch := rfl
@[simp] theorem pulse_wakes (n e : Nat) : (s.pulse n e).wakes = s.wakes := rfl
@[simp] theorem pulse_harness (n e : Nat) : (s.pulse n e).harness = s.harness := rfl
@[simp] theorem pulse_ready (n e : Nat) : (s.pulse n e).ready = s.ready := rfl
@[simp] theorem pulse_spares (n e : Nat) : (s.pulse n e).spares = s.spares := rfl
@[simp] theorem pulse_tests (n e : Nat) : (s.pulse n e).tests = s.tests := rfl
@[simp] theorem pulse_energy (n e : Nat) : (s.pulse n e).energy = s.energy := rfl
@[simp] theorem pulse_moved (n e : Nat) : (s.pulse n e).moved = s.moved := rfl

@[simp] theorem raiseEvent_pending (n e : Nat) : (s.raiseEvent n e).pending = s.pending := rfl
@[simp] theorem raiseEvent_out (n e : Nat) : (s.raiseEvent n e).out = s.out := rfl
@[simp] theorem raiseEvent_clock (n e : Nat) : (s.raiseEvent n e).clock = s.clock := rfl
@[simp] theorem raiseEvent_beats (n e : Nat) : (s.raiseEvent n e).beats = s.beats := rfl
@[simp] theorem raiseEvent_mgmtClock (n e : Nat) : (s.raiseEvent n e).mgmtClock = s.mgmtClock := rfl
@[simp] theorem raiseEvent_freeCount (n e : Nat) : (s.raiseEvent n e).freeCount = s.freeCount := rfl
@[simp] theorem raiseEvent_irq (n e : Nat) : (s.raiseEvent n e).irq = s.irq := rfl
@[simp] theorem raiseEvent_mt (n e : Nat) : (s.raiseEvent n e).mt = s.mt := rfl
@[simp] theorem raiseEvent_cals (n e : Nat) : (s.raiseEvent n e).cals = s.cals := rfl
@[simp] theorem raiseEvent_clusters (n e : Nat) : (s.raiseEvent n e).clusters = s.clusters := rfl
@[simp] theorem raiseEvent_probes (n e : Nat) : (s.raiseEvent n e).probes = s.probes := rfl
@[simp] theorem raiseEvent_flights (n e : Nat) : (s.raiseEvent n e).flights = s.flights := rfl
@[simp] theorem raiseEvent_lanes (n e : Nat) : (s.raiseEvent n e).lanes = s.lanes := rfl
@[simp] theorem raiseEvent_regions (n e : Nat) : (s.raiseEvent n e).regions = s.regions := rfl
@[simp] theorem raiseEvent_mem (n e : Nat) : (s.raiseEvent n e).mem = s.mem := rfl
@[simp] theorem raiseEvent_host (n e : Nat) : (s.raiseEvent n e).host = s.host := rfl
@[simp] theorem raiseEvent_boot (n e : Nat) : (s.raiseEvent n e).boot = s.boot := rfl
@[simp] theorem raiseEvent_ident (n e : Nat) : (s.raiseEvent n e).ident = s.ident := rfl
@[simp] theorem raiseEvent_custody (n e : Nat) : (s.raiseEvent n e).custody = s.custody := rfl
@[simp] theorem raiseEvent_bridle (n e : Nat) : (s.raiseEvent n e).bridle = s.bridle := rfl
@[simp] theorem raiseEvent_mesh (n e : Nat) : (s.raiseEvent n e).mesh = s.mesh := rfl
@[simp] theorem raiseEvent_cinch (n e : Nat) : (s.raiseEvent n e).cinch = s.cinch := rfl
@[simp] theorem raiseEvent_wakes (n e : Nat) : (s.raiseEvent n e).wakes = s.wakes := rfl
@[simp] theorem raiseEvent_harness (n e : Nat) : (s.raiseEvent n e).harness = s.harness := rfl
@[simp] theorem raiseEvent_ready (n e : Nat) : (s.raiseEvent n e).ready = s.ready := rfl
@[simp] theorem raiseEvent_spares (n e : Nat) : (s.raiseEvent n e).spares = s.spares := rfl
@[simp] theorem raiseEvent_tests (n e : Nat) : (s.raiseEvent n e).tests = s.tests := rfl
@[simp] theorem raiseEvent_energy (n e : Nat) : (s.raiseEvent n e).energy = s.energy := rfl
@[simp] theorem raiseEvent_moved (n e : Nat) : (s.raiseEvent n e).moved = s.moved := rfl

@[simp] theorem dropEvent_pending (n e : Nat) : (s.dropEvent n e).pending = s.pending := rfl
@[simp] theorem dropEvent_out (n e : Nat) : (s.dropEvent n e).out = s.out := rfl
@[simp] theorem dropEvent_clock (n e : Nat) : (s.dropEvent n e).clock = s.clock := rfl
@[simp] theorem dropEvent_beats (n e : Nat) : (s.dropEvent n e).beats = s.beats := rfl
@[simp] theorem dropEvent_mgmtClock (n e : Nat) : (s.dropEvent n e).mgmtClock = s.mgmtClock := rfl
@[simp] theorem dropEvent_freeCount (n e : Nat) : (s.dropEvent n e).freeCount = s.freeCount := rfl
@[simp] theorem dropEvent_irq (n e : Nat) : (s.dropEvent n e).irq = s.irq := rfl
@[simp] theorem dropEvent_mt (n e : Nat) : (s.dropEvent n e).mt = s.mt := rfl
@[simp] theorem dropEvent_cals (n e : Nat) : (s.dropEvent n e).cals = s.cals := rfl
@[simp] theorem dropEvent_clusters (n e : Nat) : (s.dropEvent n e).clusters = s.clusters := rfl
@[simp] theorem dropEvent_probes (n e : Nat) : (s.dropEvent n e).probes = s.probes := rfl
@[simp] theorem dropEvent_flights (n e : Nat) : (s.dropEvent n e).flights = s.flights := rfl
@[simp] theorem dropEvent_lanes (n e : Nat) : (s.dropEvent n e).lanes = s.lanes := rfl
@[simp] theorem dropEvent_regions (n e : Nat) : (s.dropEvent n e).regions = s.regions := rfl
@[simp] theorem dropEvent_mem (n e : Nat) : (s.dropEvent n e).mem = s.mem := rfl
@[simp] theorem dropEvent_host (n e : Nat) : (s.dropEvent n e).host = s.host := rfl
@[simp] theorem dropEvent_boot (n e : Nat) : (s.dropEvent n e).boot = s.boot := rfl
@[simp] theorem dropEvent_ident (n e : Nat) : (s.dropEvent n e).ident = s.ident := rfl
@[simp] theorem dropEvent_custody (n e : Nat) : (s.dropEvent n e).custody = s.custody := rfl
@[simp] theorem dropEvent_bridle (n e : Nat) : (s.dropEvent n e).bridle = s.bridle := rfl
@[simp] theorem dropEvent_mesh (n e : Nat) : (s.dropEvent n e).mesh = s.mesh := rfl
@[simp] theorem dropEvent_cinch (n e : Nat) : (s.dropEvent n e).cinch = s.cinch := rfl
@[simp] theorem dropEvent_wakes (n e : Nat) : (s.dropEvent n e).wakes = s.wakes := rfl
@[simp] theorem dropEvent_harness (n e : Nat) : (s.dropEvent n e).harness = s.harness := rfl
@[simp] theorem dropEvent_ready (n e : Nat) : (s.dropEvent n e).ready = s.ready := rfl
@[simp] theorem dropEvent_spares (n e : Nat) : (s.dropEvent n e).spares = s.spares := rfl
@[simp] theorem dropEvent_tests (n e : Nat) : (s.dropEvent n e).tests = s.tests := rfl
@[simp] theorem dropEvent_energy (n e : Nat) : (s.dropEvent n e).energy = s.energy := rfl
@[simp] theorem dropEvent_moved (n e : Nat) : (s.dropEvent n e).moved = s.moved := rfl

@[simp] theorem count_pending (n c d : Nat) : (s.count n c d).pending = s.pending := rfl
@[simp] theorem count_out (n c d : Nat) : (s.count n c d).out = s.out := rfl
@[simp] theorem count_clock (n c d : Nat) : (s.count n c d).clock = s.clock := rfl
@[simp] theorem count_beats (n c d : Nat) : (s.count n c d).beats = s.beats := rfl
@[simp] theorem count_mgmtClock (n c d : Nat) : (s.count n c d).mgmtClock = s.mgmtClock := rfl
@[simp] theorem count_freeCount (n c d : Nat) : (s.count n c d).freeCount = s.freeCount := rfl
@[simp] theorem count_irq (n c d : Nat) : (s.count n c d).irq = s.irq := rfl
@[simp] theorem count_mt (n c d : Nat) : (s.count n c d).mt = s.mt := rfl
@[simp] theorem count_cals (n c d : Nat) : (s.count n c d).cals = s.cals := rfl
@[simp] theorem count_clusters (n c d : Nat) : (s.count n c d).clusters = s.clusters := rfl
@[simp] theorem count_probes (n c d : Nat) : (s.count n c d).probes = s.probes := rfl
@[simp] theorem count_flights (n c d : Nat) : (s.count n c d).flights = s.flights := rfl
@[simp] theorem count_lanes (n c d : Nat) : (s.count n c d).lanes = s.lanes := rfl
@[simp] theorem count_regions (n c d : Nat) : (s.count n c d).regions = s.regions := rfl
@[simp] theorem count_mem (n c d : Nat) : (s.count n c d).mem = s.mem := rfl
@[simp] theorem count_host (n c d : Nat) : (s.count n c d).host = s.host := rfl
@[simp] theorem count_boot (n c d : Nat) : (s.count n c d).boot = s.boot := rfl
@[simp] theorem count_ident (n c d : Nat) : (s.count n c d).ident = s.ident := rfl
@[simp] theorem count_custody (n c d : Nat) : (s.count n c d).custody = s.custody := rfl
@[simp] theorem count_bridle (n c d : Nat) : (s.count n c d).bridle = s.bridle := rfl
@[simp] theorem count_mesh (n c d : Nat) : (s.count n c d).mesh = s.mesh := rfl
@[simp] theorem count_cinch (n c d : Nat) : (s.count n c d).cinch = s.cinch := rfl
@[simp] theorem count_wakes (n c d : Nat) : (s.count n c d).wakes = s.wakes := rfl
@[simp] theorem count_harness (n c d : Nat) : (s.count n c d).harness = s.harness := rfl
@[simp] theorem count_ready (n c d : Nat) : (s.count n c d).ready = s.ready := rfl
@[simp] theorem count_spares (n c d : Nat) : (s.count n c d).spares = s.spares := rfl
@[simp] theorem count_tests (n c d : Nat) : (s.count n c d).tests = s.tests := rfl
@[simp] theorem count_energy (n c d : Nat) : (s.count n c d).energy = s.energy := rfl
@[simp] theorem count_moved (n c d : Nat) : (s.count n c d).moved = s.moved := rfl

@[simp] theorem setReg_pending (n o w : Nat) : (s.setReg n o w).pending = s.pending := rfl
@[simp] theorem setReg_out (n o w : Nat) : (s.setReg n o w).out = s.out := rfl
@[simp] theorem setReg_clock (n o w : Nat) : (s.setReg n o w).clock = s.clock := rfl
@[simp] theorem setReg_beats (n o w : Nat) : (s.setReg n o w).beats = s.beats := rfl
@[simp] theorem setReg_mgmtClock (n o w : Nat) : (s.setReg n o w).mgmtClock = s.mgmtClock := rfl
@[simp] theorem setReg_freeCount (n o w : Nat) : (s.setReg n o w).freeCount = s.freeCount := rfl
@[simp] theorem setReg_irq (n o w : Nat) : (s.setReg n o w).irq = s.irq := rfl
@[simp] theorem setReg_mt (n o w : Nat) : (s.setReg n o w).mt = s.mt := rfl
@[simp] theorem setReg_cals (n o w : Nat) : (s.setReg n o w).cals = s.cals := rfl
@[simp] theorem setReg_clusters (n o w : Nat) : (s.setReg n o w).clusters = s.clusters := rfl
@[simp] theorem setReg_probes (n o w : Nat) : (s.setReg n o w).probes = s.probes := rfl
@[simp] theorem setReg_flights (n o w : Nat) : (s.setReg n o w).flights = s.flights := rfl
@[simp] theorem setReg_lanes (n o w : Nat) : (s.setReg n o w).lanes = s.lanes := rfl
@[simp] theorem setReg_regions (n o w : Nat) : (s.setReg n o w).regions = s.regions := rfl
@[simp] theorem setReg_mem (n o w : Nat) : (s.setReg n o w).mem = s.mem := rfl
@[simp] theorem setReg_host (n o w : Nat) : (s.setReg n o w).host = s.host := rfl
@[simp] theorem setReg_boot (n o w : Nat) : (s.setReg n o w).boot = s.boot := rfl
@[simp] theorem setReg_ident (n o w : Nat) : (s.setReg n o w).ident = s.ident := rfl
@[simp] theorem setReg_custody (n o w : Nat) : (s.setReg n o w).custody = s.custody := rfl
@[simp] theorem setReg_bridle (n o w : Nat) : (s.setReg n o w).bridle = s.bridle := rfl
@[simp] theorem setReg_mesh (n o w : Nat) : (s.setReg n o w).mesh = s.mesh := rfl
@[simp] theorem setReg_cinch (n o w : Nat) : (s.setReg n o w).cinch = s.cinch := rfl
@[simp] theorem setReg_wakes (n o w : Nat) : (s.setReg n o w).wakes = s.wakes := rfl
@[simp] theorem setReg_harness (n o w : Nat) : (s.setReg n o w).harness = s.harness := rfl
@[simp] theorem setReg_ready (n o w : Nat) : (s.setReg n o w).ready = s.ready := rfl
@[simp] theorem setReg_spares (n o w : Nat) : (s.setReg n o w).spares = s.spares := rfl
@[simp] theorem setReg_tests (n o w : Nat) : (s.setReg n o w).tests = s.tests := rfl
@[simp] theorem setReg_energy (n o w : Nat) : (s.setReg n o w).energy = s.energy := rfl
@[simp] theorem setReg_moved (n o w : Nat) : (s.setReg n o w).moved = s.moved := rfl

@[simp] theorem emit_pending (o : Output) : (s.emit o).pending = s.pending := rfl
@[simp] theorem emit_clock (o : Output) : (s.emit o).clock = s.clock := rfl
@[simp] theorem emit_beats (o : Output) : (s.emit o).beats = s.beats := rfl
@[simp] theorem emit_mgmtClock (o : Output) : (s.emit o).mgmtClock = s.mgmtClock := rfl
@[simp] theorem emit_freeCount (o : Output) : (s.emit o).freeCount = s.freeCount := rfl
@[simp] theorem emit_pages (o : Output) : (s.emit o).pages = s.pages := rfl
@[simp] theorem emit_irq (o : Output) : (s.emit o).irq = s.irq := rfl
@[simp] theorem emit_mt (o : Output) : (s.emit o).mt = s.mt := rfl
@[simp] theorem emit_cals (o : Output) : (s.emit o).cals = s.cals := rfl
@[simp] theorem emit_clusters (o : Output) : (s.emit o).clusters = s.clusters := rfl
@[simp] theorem emit_probes (o : Output) : (s.emit o).probes = s.probes := rfl
@[simp] theorem emit_flights (o : Output) : (s.emit o).flights = s.flights := rfl
@[simp] theorem emit_lanes (o : Output) : (s.emit o).lanes = s.lanes := rfl
@[simp] theorem emit_regions (o : Output) : (s.emit o).regions = s.regions := rfl
@[simp] theorem emit_mem (o : Output) : (s.emit o).mem = s.mem := rfl
@[simp] theorem emit_host (o : Output) : (s.emit o).host = s.host := rfl
@[simp] theorem emit_boot (o : Output) : (s.emit o).boot = s.boot := rfl
@[simp] theorem emit_ident (o : Output) : (s.emit o).ident = s.ident := rfl
@[simp] theorem emit_custody (o : Output) : (s.emit o).custody = s.custody := rfl
@[simp] theorem emit_bridle (o : Output) : (s.emit o).bridle = s.bridle := rfl
@[simp] theorem emit_mesh (o : Output) : (s.emit o).mesh = s.mesh := rfl
@[simp] theorem emit_cinch (o : Output) : (s.emit o).cinch = s.cinch := rfl
@[simp] theorem emit_wakes (o : Output) : (s.emit o).wakes = s.wakes := rfl
@[simp] theorem emit_harness (o : Output) : (s.emit o).harness = s.harness := rfl
@[simp] theorem emit_ready (o : Output) : (s.emit o).ready = s.ready := rfl
@[simp] theorem emit_spares (o : Output) : (s.emit o).spares = s.spares := rfl
@[simp] theorem emit_tests (o : Output) : (s.emit o).tests = s.tests := rfl
@[simp] theorem emit_energy (o : Output) : (s.emit o).energy = s.energy := rfl
@[simp] theorem emit_moved (o : Output) : (s.emit o).moved = s.moved := rfl

@[simp] theorem modCl_pending (k : Nat) (f : ClusterState → ClusterState) : (s.modCl k f).pending = s.pending := rfl
@[simp] theorem modCl_out (k : Nat) (f : ClusterState → ClusterState) : (s.modCl k f).out = s.out := rfl
@[simp] theorem modCl_clock (k : Nat) (f : ClusterState → ClusterState) : (s.modCl k f).clock = s.clock := rfl
@[simp] theorem modCl_beats (k : Nat) (f : ClusterState → ClusterState) : (s.modCl k f).beats = s.beats := rfl
@[simp] theorem modCl_mgmtClock (k : Nat) (f : ClusterState → ClusterState) : (s.modCl k f).mgmtClock = s.mgmtClock := rfl
@[simp] theorem modCl_freeCount (k : Nat) (f : ClusterState → ClusterState) : (s.modCl k f).freeCount = s.freeCount := rfl
@[simp] theorem modCl_pages (k : Nat) (f : ClusterState → ClusterState) : (s.modCl k f).pages = s.pages := rfl
@[simp] theorem modCl_irq (k : Nat) (f : ClusterState → ClusterState) : (s.modCl k f).irq = s.irq := rfl
@[simp] theorem modCl_mt (k : Nat) (f : ClusterState → ClusterState) : (s.modCl k f).mt = s.mt := rfl
@[simp] theorem modCl_cals (k : Nat) (f : ClusterState → ClusterState) : (s.modCl k f).cals = s.cals := rfl
@[simp] theorem modCl_probes (k : Nat) (f : ClusterState → ClusterState) : (s.modCl k f).probes = s.probes := rfl
@[simp] theorem modCl_flights (k : Nat) (f : ClusterState → ClusterState) : (s.modCl k f).flights = s.flights := rfl
@[simp] theorem modCl_lanes (k : Nat) (f : ClusterState → ClusterState) : (s.modCl k f).lanes = s.lanes := rfl
@[simp] theorem modCl_regions (k : Nat) (f : ClusterState → ClusterState) : (s.modCl k f).regions = s.regions := rfl
@[simp] theorem modCl_mem (k : Nat) (f : ClusterState → ClusterState) : (s.modCl k f).mem = s.mem := rfl
@[simp] theorem modCl_host (k : Nat) (f : ClusterState → ClusterState) : (s.modCl k f).host = s.host := rfl
@[simp] theorem modCl_boot (k : Nat) (f : ClusterState → ClusterState) : (s.modCl k f).boot = s.boot := rfl
@[simp] theorem modCl_ident (k : Nat) (f : ClusterState → ClusterState) : (s.modCl k f).ident = s.ident := rfl
@[simp] theorem modCl_custody (k : Nat) (f : ClusterState → ClusterState) : (s.modCl k f).custody = s.custody := rfl
@[simp] theorem modCl_bridle (k : Nat) (f : ClusterState → ClusterState) : (s.modCl k f).bridle = s.bridle := rfl
@[simp] theorem modCl_mesh (k : Nat) (f : ClusterState → ClusterState) : (s.modCl k f).mesh = s.mesh := rfl
@[simp] theorem modCl_cinch (k : Nat) (f : ClusterState → ClusterState) : (s.modCl k f).cinch = s.cinch := rfl
@[simp] theorem modCl_wakes (k : Nat) (f : ClusterState → ClusterState) : (s.modCl k f).wakes = s.wakes := rfl
@[simp] theorem modCl_harness (k : Nat) (f : ClusterState → ClusterState) : (s.modCl k f).harness = s.harness := rfl
@[simp] theorem modCl_ready (k : Nat) (f : ClusterState → ClusterState) : (s.modCl k f).ready = s.ready := rfl
@[simp] theorem modCl_spares (k : Nat) (f : ClusterState → ClusterState) : (s.modCl k f).spares = s.spares := rfl
@[simp] theorem modCl_tests (k : Nat) (f : ClusterState → ClusterState) : (s.modCl k f).tests = s.tests := rfl
@[simp] theorem modCl_energy (k : Nat) (f : ClusterState → ClusterState) : (s.modCl k f).energy = s.energy := rfl
@[simp] theorem modCl_moved (k : Nat) (f : ClusterState → ClusterState) : (s.modCl k f).moved = s.moved := rfl

@[simp] theorem modCore_pending (k n : Nat) (f : CoreState → CoreState) : (s.modCore k n f).pending = s.pending := rfl
@[simp] theorem modCore_out (k n : Nat) (f : CoreState → CoreState) : (s.modCore k n f).out = s.out := rfl
@[simp] theorem modCore_clock (k n : Nat) (f : CoreState → CoreState) : (s.modCore k n f).clock = s.clock := rfl
@[simp] theorem modCore_beats (k n : Nat) (f : CoreState → CoreState) : (s.modCore k n f).beats = s.beats := rfl
@[simp] theorem modCore_mgmtClock (k n : Nat) (f : CoreState → CoreState) : (s.modCore k n f).mgmtClock = s.mgmtClock := rfl
@[simp] theorem modCore_freeCount (k n : Nat) (f : CoreState → CoreState) : (s.modCore k n f).freeCount = s.freeCount := rfl
@[simp] theorem modCore_pages (k n : Nat) (f : CoreState → CoreState) : (s.modCore k n f).pages = s.pages := rfl
@[simp] theorem modCore_irq (k n : Nat) (f : CoreState → CoreState) : (s.modCore k n f).irq = s.irq := rfl
@[simp] theorem modCore_mt (k n : Nat) (f : CoreState → CoreState) : (s.modCore k n f).mt = s.mt := rfl
@[simp] theorem modCore_cals (k n : Nat) (f : CoreState → CoreState) : (s.modCore k n f).cals = s.cals := rfl
@[simp] theorem modCore_probes (k n : Nat) (f : CoreState → CoreState) : (s.modCore k n f).probes = s.probes := rfl
@[simp] theorem modCore_flights (k n : Nat) (f : CoreState → CoreState) : (s.modCore k n f).flights = s.flights := rfl
@[simp] theorem modCore_lanes (k n : Nat) (f : CoreState → CoreState) : (s.modCore k n f).lanes = s.lanes := rfl
@[simp] theorem modCore_regions (k n : Nat) (f : CoreState → CoreState) : (s.modCore k n f).regions = s.regions := rfl
@[simp] theorem modCore_mem (k n : Nat) (f : CoreState → CoreState) : (s.modCore k n f).mem = s.mem := rfl
@[simp] theorem modCore_host (k n : Nat) (f : CoreState → CoreState) : (s.modCore k n f).host = s.host := rfl
@[simp] theorem modCore_boot (k n : Nat) (f : CoreState → CoreState) : (s.modCore k n f).boot = s.boot := rfl
@[simp] theorem modCore_ident (k n : Nat) (f : CoreState → CoreState) : (s.modCore k n f).ident = s.ident := rfl
@[simp] theorem modCore_custody (k n : Nat) (f : CoreState → CoreState) : (s.modCore k n f).custody = s.custody := rfl
@[simp] theorem modCore_bridle (k n : Nat) (f : CoreState → CoreState) : (s.modCore k n f).bridle = s.bridle := rfl
@[simp] theorem modCore_mesh (k n : Nat) (f : CoreState → CoreState) : (s.modCore k n f).mesh = s.mesh := rfl
@[simp] theorem modCore_cinch (k n : Nat) (f : CoreState → CoreState) : (s.modCore k n f).cinch = s.cinch := rfl
@[simp] theorem modCore_wakes (k n : Nat) (f : CoreState → CoreState) : (s.modCore k n f).wakes = s.wakes := rfl
@[simp] theorem modCore_harness (k n : Nat) (f : CoreState → CoreState) : (s.modCore k n f).harness = s.harness := rfl
@[simp] theorem modCore_ready (k n : Nat) (f : CoreState → CoreState) : (s.modCore k n f).ready = s.ready := rfl
@[simp] theorem modCore_spares (k n : Nat) (f : CoreState → CoreState) : (s.modCore k n f).spares = s.spares := rfl
@[simp] theorem modCore_tests (k n : Nat) (f : CoreState → CoreState) : (s.modCore k n f).tests = s.tests := rfl
@[simp] theorem modCore_energy (k n : Nat) (f : CoreState → CoreState) : (s.modCore k n f).energy = s.energy := rfl
@[simp] theorem modCore_moved (k n : Nat) (f : CoreState → CoreState) : (s.modCore k n f).moved = s.moved := rfl

@[simp] theorem modRegion_pending (r : Nat) (f : Region → Region) : (s.modRegion r f).pending = s.pending := rfl
@[simp] theorem modRegion_out (r : Nat) (f : Region → Region) : (s.modRegion r f).out = s.out := rfl
@[simp] theorem modRegion_clock (r : Nat) (f : Region → Region) : (s.modRegion r f).clock = s.clock := rfl
@[simp] theorem modRegion_beats (r : Nat) (f : Region → Region) : (s.modRegion r f).beats = s.beats := rfl
@[simp] theorem modRegion_mgmtClock (r : Nat) (f : Region → Region) : (s.modRegion r f).mgmtClock = s.mgmtClock := rfl
@[simp] theorem modRegion_freeCount (r : Nat) (f : Region → Region) : (s.modRegion r f).freeCount = s.freeCount := rfl
@[simp] theorem modRegion_pages (r : Nat) (f : Region → Region) : (s.modRegion r f).pages = s.pages := rfl
@[simp] theorem modRegion_irq (r : Nat) (f : Region → Region) : (s.modRegion r f).irq = s.irq := rfl
@[simp] theorem modRegion_mt (r : Nat) (f : Region → Region) : (s.modRegion r f).mt = s.mt := rfl
@[simp] theorem modRegion_cals (r : Nat) (f : Region → Region) : (s.modRegion r f).cals = s.cals := rfl
@[simp] theorem modRegion_clusters (r : Nat) (f : Region → Region) : (s.modRegion r f).clusters = s.clusters := rfl
@[simp] theorem modRegion_probes (r : Nat) (f : Region → Region) : (s.modRegion r f).probes = s.probes := rfl
@[simp] theorem modRegion_flights (r : Nat) (f : Region → Region) : (s.modRegion r f).flights = s.flights := rfl
@[simp] theorem modRegion_lanes (r : Nat) (f : Region → Region) : (s.modRegion r f).lanes = s.lanes := rfl
@[simp] theorem modRegion_mem (r : Nat) (f : Region → Region) : (s.modRegion r f).mem = s.mem := rfl
@[simp] theorem modRegion_host (r : Nat) (f : Region → Region) : (s.modRegion r f).host = s.host := rfl
@[simp] theorem modRegion_boot (r : Nat) (f : Region → Region) : (s.modRegion r f).boot = s.boot := rfl
@[simp] theorem modRegion_ident (r : Nat) (f : Region → Region) : (s.modRegion r f).ident = s.ident := rfl
@[simp] theorem modRegion_custody (r : Nat) (f : Region → Region) : (s.modRegion r f).custody = s.custody := rfl
@[simp] theorem modRegion_bridle (r : Nat) (f : Region → Region) : (s.modRegion r f).bridle = s.bridle := rfl
@[simp] theorem modRegion_mesh (r : Nat) (f : Region → Region) : (s.modRegion r f).mesh = s.mesh := rfl
@[simp] theorem modRegion_cinch (r : Nat) (f : Region → Region) : (s.modRegion r f).cinch = s.cinch := rfl
@[simp] theorem modRegion_wakes (r : Nat) (f : Region → Region) : (s.modRegion r f).wakes = s.wakes := rfl
@[simp] theorem modRegion_harness (r : Nat) (f : Region → Region) : (s.modRegion r f).harness = s.harness := rfl
@[simp] theorem modRegion_ready (r : Nat) (f : Region → Region) : (s.modRegion r f).ready = s.ready := rfl
@[simp] theorem modRegion_spares (r : Nat) (f : Region → Region) : (s.modRegion r f).spares = s.spares := rfl
@[simp] theorem modRegion_tests (r : Nat) (f : Region → Region) : (s.modRegion r f).tests = s.tests := rfl
@[simp] theorem modRegion_energy (r : Nat) (f : Region → Region) : (s.modRegion r f).energy = s.energy := rfl
@[simp] theorem modRegion_moved (r : Nat) (f : Region → Region) : (s.modRegion r f).moved = s.moved := rfl

@[simp] theorem setCal_pending (n : Nat) (es : List CalEntry) : (s.setCal n es).pending = s.pending := rfl
@[simp] theorem setCal_out (n : Nat) (es : List CalEntry) : (s.setCal n es).out = s.out := rfl
@[simp] theorem setCal_clock (n : Nat) (es : List CalEntry) : (s.setCal n es).clock = s.clock := rfl
@[simp] theorem setCal_beats (n : Nat) (es : List CalEntry) : (s.setCal n es).beats = s.beats := rfl
@[simp] theorem setCal_mgmtClock (n : Nat) (es : List CalEntry) : (s.setCal n es).mgmtClock = s.mgmtClock := rfl
@[simp] theorem setCal_freeCount (n : Nat) (es : List CalEntry) : (s.setCal n es).freeCount = s.freeCount := rfl
@[simp] theorem setCal_pages (n : Nat) (es : List CalEntry) : (s.setCal n es).pages = s.pages := rfl
@[simp] theorem setCal_irq (n : Nat) (es : List CalEntry) : (s.setCal n es).irq = s.irq := rfl
@[simp] theorem setCal_mt (n : Nat) (es : List CalEntry) : (s.setCal n es).mt = s.mt := rfl
@[simp] theorem setCal_clusters (n : Nat) (es : List CalEntry) : (s.setCal n es).clusters = s.clusters := rfl
@[simp] theorem setCal_probes (n : Nat) (es : List CalEntry) : (s.setCal n es).probes = s.probes := rfl
@[simp] theorem setCal_flights (n : Nat) (es : List CalEntry) : (s.setCal n es).flights = s.flights := rfl
@[simp] theorem setCal_lanes (n : Nat) (es : List CalEntry) : (s.setCal n es).lanes = s.lanes := rfl
@[simp] theorem setCal_regions (n : Nat) (es : List CalEntry) : (s.setCal n es).regions = s.regions := rfl
@[simp] theorem setCal_mem (n : Nat) (es : List CalEntry) : (s.setCal n es).mem = s.mem := rfl
@[simp] theorem setCal_host (n : Nat) (es : List CalEntry) : (s.setCal n es).host = s.host := rfl
@[simp] theorem setCal_boot (n : Nat) (es : List CalEntry) : (s.setCal n es).boot = s.boot := rfl
@[simp] theorem setCal_ident (n : Nat) (es : List CalEntry) : (s.setCal n es).ident = s.ident := rfl
@[simp] theorem setCal_custody (n : Nat) (es : List CalEntry) : (s.setCal n es).custody = s.custody := rfl
@[simp] theorem setCal_bridle (n : Nat) (es : List CalEntry) : (s.setCal n es).bridle = s.bridle := rfl
@[simp] theorem setCal_mesh (n : Nat) (es : List CalEntry) : (s.setCal n es).mesh = s.mesh := rfl
@[simp] theorem setCal_cinch (n : Nat) (es : List CalEntry) : (s.setCal n es).cinch = s.cinch := rfl
@[simp] theorem setCal_wakes (n : Nat) (es : List CalEntry) : (s.setCal n es).wakes = s.wakes := rfl
@[simp] theorem setCal_harness (n : Nat) (es : List CalEntry) : (s.setCal n es).harness = s.harness := rfl
@[simp] theorem setCal_ready (n : Nat) (es : List CalEntry) : (s.setCal n es).ready = s.ready := rfl
@[simp] theorem setCal_spares (n : Nat) (es : List CalEntry) : (s.setCal n es).spares = s.spares := rfl
@[simp] theorem setCal_tests (n : Nat) (es : List CalEntry) : (s.setCal n es).tests = s.tests := rfl
@[simp] theorem setCal_energy (n : Nat) (es : List CalEntry) : (s.setCal n es).energy = s.energy := rfl
@[simp] theorem setCal_moved (n : Nat) (es : List CalEntry) : (s.setCal n es).moved = s.moved := rfl

@[simp] theorem modMt_pending (f : MTime → MTime) : (s.modMt f).pending = s.pending := rfl
@[simp] theorem modMt_out (f : MTime → MTime) : (s.modMt f).out = s.out := rfl
@[simp] theorem modMt_clock (f : MTime → MTime) : (s.modMt f).clock = s.clock := rfl
@[simp] theorem modMt_beats (f : MTime → MTime) : (s.modMt f).beats = s.beats := rfl
@[simp] theorem modMt_mgmtClock (f : MTime → MTime) : (s.modMt f).mgmtClock = s.mgmtClock := rfl
@[simp] theorem modMt_freeCount (f : MTime → MTime) : (s.modMt f).freeCount = s.freeCount := rfl
@[simp] theorem modMt_pages (f : MTime → MTime) : (s.modMt f).pages = s.pages := rfl
@[simp] theorem modMt_irq (f : MTime → MTime) : (s.modMt f).irq = s.irq := rfl
@[simp] theorem modMt_cals (f : MTime → MTime) : (s.modMt f).cals = s.cals := rfl
@[simp] theorem modMt_clusters (f : MTime → MTime) : (s.modMt f).clusters = s.clusters := rfl
@[simp] theorem modMt_probes (f : MTime → MTime) : (s.modMt f).probes = s.probes := rfl
@[simp] theorem modMt_flights (f : MTime → MTime) : (s.modMt f).flights = s.flights := rfl
@[simp] theorem modMt_lanes (f : MTime → MTime) : (s.modMt f).lanes = s.lanes := rfl
@[simp] theorem modMt_regions (f : MTime → MTime) : (s.modMt f).regions = s.regions := rfl
@[simp] theorem modMt_mem (f : MTime → MTime) : (s.modMt f).mem = s.mem := rfl
@[simp] theorem modMt_host (f : MTime → MTime) : (s.modMt f).host = s.host := rfl
@[simp] theorem modMt_boot (f : MTime → MTime) : (s.modMt f).boot = s.boot := rfl
@[simp] theorem modMt_ident (f : MTime → MTime) : (s.modMt f).ident = s.ident := rfl
@[simp] theorem modMt_custody (f : MTime → MTime) : (s.modMt f).custody = s.custody := rfl
@[simp] theorem modMt_bridle (f : MTime → MTime) : (s.modMt f).bridle = s.bridle := rfl
@[simp] theorem modMt_mesh (f : MTime → MTime) : (s.modMt f).mesh = s.mesh := rfl
@[simp] theorem modMt_cinch (f : MTime → MTime) : (s.modMt f).cinch = s.cinch := rfl
@[simp] theorem modMt_wakes (f : MTime → MTime) : (s.modMt f).wakes = s.wakes := rfl
@[simp] theorem modMt_harness (f : MTime → MTime) : (s.modMt f).harness = s.harness := rfl
@[simp] theorem modMt_ready (f : MTime → MTime) : (s.modMt f).ready = s.ready := rfl
@[simp] theorem modMt_spares (f : MTime → MTime) : (s.modMt f).spares = s.spares := rfl
@[simp] theorem modMt_tests (f : MTime → MTime) : (s.modMt f).tests = s.tests := rfl
@[simp] theorem modMt_energy (f : MTime → MTime) : (s.modMt f).energy = s.energy := rfl
@[simp] theorem modMt_moved (f : MTime → MTime) : (s.modMt f).moved = s.moved := rfl

@[simp] theorem modSource_pending (n : Nat) (f : Source → Source) : (s.modSource n f).pending = s.pending := rfl
@[simp] theorem modSource_out (n : Nat) (f : Source → Source) : (s.modSource n f).out = s.out := rfl
@[simp] theorem modSource_clock (n : Nat) (f : Source → Source) : (s.modSource n f).clock = s.clock := rfl
@[simp] theorem modSource_beats (n : Nat) (f : Source → Source) : (s.modSource n f).beats = s.beats := rfl
@[simp] theorem modSource_mgmtClock (n : Nat) (f : Source → Source) : (s.modSource n f).mgmtClock = s.mgmtClock := rfl
@[simp] theorem modSource_freeCount (n : Nat) (f : Source → Source) : (s.modSource n f).freeCount = s.freeCount := rfl
@[simp] theorem modSource_pages (n : Nat) (f : Source → Source) : (s.modSource n f).pages = s.pages := rfl
@[simp] theorem modSource_mt (n : Nat) (f : Source → Source) : (s.modSource n f).mt = s.mt := rfl
@[simp] theorem modSource_cals (n : Nat) (f : Source → Source) : (s.modSource n f).cals = s.cals := rfl
@[simp] theorem modSource_clusters (n : Nat) (f : Source → Source) : (s.modSource n f).clusters = s.clusters := rfl
@[simp] theorem modSource_probes (n : Nat) (f : Source → Source) : (s.modSource n f).probes = s.probes := rfl
@[simp] theorem modSource_flights (n : Nat) (f : Source → Source) : (s.modSource n f).flights = s.flights := rfl
@[simp] theorem modSource_lanes (n : Nat) (f : Source → Source) : (s.modSource n f).lanes = s.lanes := rfl
@[simp] theorem modSource_regions (n : Nat) (f : Source → Source) : (s.modSource n f).regions = s.regions := rfl
@[simp] theorem modSource_mem (n : Nat) (f : Source → Source) : (s.modSource n f).mem = s.mem := rfl
@[simp] theorem modSource_host (n : Nat) (f : Source → Source) : (s.modSource n f).host = s.host := rfl
@[simp] theorem modSource_boot (n : Nat) (f : Source → Source) : (s.modSource n f).boot = s.boot := rfl
@[simp] theorem modSource_ident (n : Nat) (f : Source → Source) : (s.modSource n f).ident = s.ident := rfl
@[simp] theorem modSource_custody (n : Nat) (f : Source → Source) : (s.modSource n f).custody = s.custody := rfl
@[simp] theorem modSource_bridle (n : Nat) (f : Source → Source) : (s.modSource n f).bridle = s.bridle := rfl
@[simp] theorem modSource_mesh (n : Nat) (f : Source → Source) : (s.modSource n f).mesh = s.mesh := rfl
@[simp] theorem modSource_cinch (n : Nat) (f : Source → Source) : (s.modSource n f).cinch = s.cinch := rfl
@[simp] theorem modSource_wakes (n : Nat) (f : Source → Source) : (s.modSource n f).wakes = s.wakes := rfl
@[simp] theorem modSource_harness (n : Nat) (f : Source → Source) : (s.modSource n f).harness = s.harness := rfl
@[simp] theorem modSource_ready (n : Nat) (f : Source → Source) : (s.modSource n f).ready = s.ready := rfl
@[simp] theorem modSource_spares (n : Nat) (f : Source → Source) : (s.modSource n f).spares = s.spares := rfl
@[simp] theorem modSource_tests (n : Nat) (f : Source → Source) : (s.modSource n f).tests = s.tests := rfl
@[simp] theorem modSource_energy (n : Nat) (f : Source → Source) : (s.modSource n f).energy = s.energy := rfl
@[simp] theorem modSource_moved (n : Nat) (f : Source → Source) : (s.modSource n f).moved = s.moved := rfl

@[simp] theorem modCtx_pending (x : Nat) (f : Context → Context) : (s.modCtx x f).pending = s.pending := rfl
@[simp] theorem modCtx_out (x : Nat) (f : Context → Context) : (s.modCtx x f).out = s.out := rfl
@[simp] theorem modCtx_clock (x : Nat) (f : Context → Context) : (s.modCtx x f).clock = s.clock := rfl
@[simp] theorem modCtx_beats (x : Nat) (f : Context → Context) : (s.modCtx x f).beats = s.beats := rfl
@[simp] theorem modCtx_mgmtClock (x : Nat) (f : Context → Context) : (s.modCtx x f).mgmtClock = s.mgmtClock := rfl
@[simp] theorem modCtx_freeCount (x : Nat) (f : Context → Context) : (s.modCtx x f).freeCount = s.freeCount := rfl
@[simp] theorem modCtx_pages (x : Nat) (f : Context → Context) : (s.modCtx x f).pages = s.pages := rfl
@[simp] theorem modCtx_irq (x : Nat) (f : Context → Context) : (s.modCtx x f).irq = s.irq := rfl
@[simp] theorem modCtx_mt (x : Nat) (f : Context → Context) : (s.modCtx x f).mt = s.mt := rfl
@[simp] theorem modCtx_cals (x : Nat) (f : Context → Context) : (s.modCtx x f).cals = s.cals := rfl
@[simp] theorem modCtx_clusters (x : Nat) (f : Context → Context) : (s.modCtx x f).clusters = s.clusters := rfl
@[simp] theorem modCtx_probes (x : Nat) (f : Context → Context) : (s.modCtx x f).probes = s.probes := rfl
@[simp] theorem modCtx_flights (x : Nat) (f : Context → Context) : (s.modCtx x f).flights = s.flights := rfl
@[simp] theorem modCtx_lanes (x : Nat) (f : Context → Context) : (s.modCtx x f).lanes = s.lanes := rfl
@[simp] theorem modCtx_regions (x : Nat) (f : Context → Context) : (s.modCtx x f).regions = s.regions := rfl
@[simp] theorem modCtx_mem (x : Nat) (f : Context → Context) : (s.modCtx x f).mem = s.mem := rfl
@[simp] theorem modCtx_boot (x : Nat) (f : Context → Context) : (s.modCtx x f).boot = s.boot := rfl
@[simp] theorem modCtx_ident (x : Nat) (f : Context → Context) : (s.modCtx x f).ident = s.ident := rfl
@[simp] theorem modCtx_custody (x : Nat) (f : Context → Context) : (s.modCtx x f).custody = s.custody := rfl
@[simp] theorem modCtx_bridle (x : Nat) (f : Context → Context) : (s.modCtx x f).bridle = s.bridle := rfl
@[simp] theorem modCtx_mesh (x : Nat) (f : Context → Context) : (s.modCtx x f).mesh = s.mesh := rfl
@[simp] theorem modCtx_cinch (x : Nat) (f : Context → Context) : (s.modCtx x f).cinch = s.cinch := rfl
@[simp] theorem modCtx_wakes (x : Nat) (f : Context → Context) : (s.modCtx x f).wakes = s.wakes := rfl
@[simp] theorem modCtx_harness (x : Nat) (f : Context → Context) : (s.modCtx x f).harness = s.harness := rfl
@[simp] theorem modCtx_ready (x : Nat) (f : Context → Context) : (s.modCtx x f).ready = s.ready := rfl
@[simp] theorem modCtx_spares (x : Nat) (f : Context → Context) : (s.modCtx x f).spares = s.spares := rfl
@[simp] theorem modCtx_tests (x : Nat) (f : Context → Context) : (s.modCtx x f).tests = s.tests := rfl
@[simp] theorem modCtx_energy (x : Nat) (f : Context → Context) : (s.modCtx x f).energy = s.energy := rfl
@[simp] theorem modCtx_moved (x : Nat) (f : Context → Context) : (s.modCtx x f).moved = s.moved := rfl

@[simp] theorem modCinch_pending (u : Nat) (f : CinchUnit → CinchUnit) : (s.modCinch u f).pending = s.pending := rfl
@[simp] theorem modCinch_out (u : Nat) (f : CinchUnit → CinchUnit) : (s.modCinch u f).out = s.out := rfl
@[simp] theorem modCinch_clock (u : Nat) (f : CinchUnit → CinchUnit) : (s.modCinch u f).clock = s.clock := rfl
@[simp] theorem modCinch_beats (u : Nat) (f : CinchUnit → CinchUnit) : (s.modCinch u f).beats = s.beats := rfl
@[simp] theorem modCinch_mgmtClock (u : Nat) (f : CinchUnit → CinchUnit) : (s.modCinch u f).mgmtClock = s.mgmtClock := rfl
@[simp] theorem modCinch_freeCount (u : Nat) (f : CinchUnit → CinchUnit) : (s.modCinch u f).freeCount = s.freeCount := rfl
@[simp] theorem modCinch_pages (u : Nat) (f : CinchUnit → CinchUnit) : (s.modCinch u f).pages = s.pages := rfl
@[simp] theorem modCinch_irq (u : Nat) (f : CinchUnit → CinchUnit) : (s.modCinch u f).irq = s.irq := rfl
@[simp] theorem modCinch_mt (u : Nat) (f : CinchUnit → CinchUnit) : (s.modCinch u f).mt = s.mt := rfl
@[simp] theorem modCinch_cals (u : Nat) (f : CinchUnit → CinchUnit) : (s.modCinch u f).cals = s.cals := rfl
@[simp] theorem modCinch_clusters (u : Nat) (f : CinchUnit → CinchUnit) : (s.modCinch u f).clusters = s.clusters := rfl
@[simp] theorem modCinch_probes (u : Nat) (f : CinchUnit → CinchUnit) : (s.modCinch u f).probes = s.probes := rfl
@[simp] theorem modCinch_flights (u : Nat) (f : CinchUnit → CinchUnit) : (s.modCinch u f).flights = s.flights := rfl
@[simp] theorem modCinch_lanes (u : Nat) (f : CinchUnit → CinchUnit) : (s.modCinch u f).lanes = s.lanes := rfl
@[simp] theorem modCinch_regions (u : Nat) (f : CinchUnit → CinchUnit) : (s.modCinch u f).regions = s.regions := rfl
@[simp] theorem modCinch_mem (u : Nat) (f : CinchUnit → CinchUnit) : (s.modCinch u f).mem = s.mem := rfl
@[simp] theorem modCinch_host (u : Nat) (f : CinchUnit → CinchUnit) : (s.modCinch u f).host = s.host := rfl
@[simp] theorem modCinch_boot (u : Nat) (f : CinchUnit → CinchUnit) : (s.modCinch u f).boot = s.boot := rfl
@[simp] theorem modCinch_ident (u : Nat) (f : CinchUnit → CinchUnit) : (s.modCinch u f).ident = s.ident := rfl
@[simp] theorem modCinch_custody (u : Nat) (f : CinchUnit → CinchUnit) : (s.modCinch u f).custody = s.custody := rfl
@[simp] theorem modCinch_bridle (u : Nat) (f : CinchUnit → CinchUnit) : (s.modCinch u f).bridle = s.bridle := rfl
@[simp] theorem modCinch_mesh (u : Nat) (f : CinchUnit → CinchUnit) : (s.modCinch u f).mesh = s.mesh := rfl
@[simp] theorem modCinch_wakes (u : Nat) (f : CinchUnit → CinchUnit) : (s.modCinch u f).wakes = s.wakes := rfl
@[simp] theorem modCinch_harness (u : Nat) (f : CinchUnit → CinchUnit) : (s.modCinch u f).harness = s.harness := rfl
@[simp] theorem modCinch_ready (u : Nat) (f : CinchUnit → CinchUnit) : (s.modCinch u f).ready = s.ready := rfl
@[simp] theorem modCinch_spares (u : Nat) (f : CinchUnit → CinchUnit) : (s.modCinch u f).spares = s.spares := rfl
@[simp] theorem modCinch_tests (u : Nat) (f : CinchUnit → CinchUnit) : (s.modCinch u f).tests = s.tests := rfl
@[simp] theorem modCinch_energy (u : Nat) (f : CinchUnit → CinchUnit) : (s.modCinch u f).energy = s.energy := rfl
@[simp] theorem modCinch_moved (u : Nat) (f : CinchUnit → CinchUnit) : (s.modCinch u f).moved = s.moved := rfl

@[simp] theorem modWake_pending (t : Nat) (f : WakeQueue → WakeQueue) : (s.modWake t f).pending = s.pending := rfl
@[simp] theorem modWake_out (t : Nat) (f : WakeQueue → WakeQueue) : (s.modWake t f).out = s.out := rfl
@[simp] theorem modWake_clock (t : Nat) (f : WakeQueue → WakeQueue) : (s.modWake t f).clock = s.clock := rfl
@[simp] theorem modWake_beats (t : Nat) (f : WakeQueue → WakeQueue) : (s.modWake t f).beats = s.beats := rfl
@[simp] theorem modWake_mgmtClock (t : Nat) (f : WakeQueue → WakeQueue) : (s.modWake t f).mgmtClock = s.mgmtClock := rfl
@[simp] theorem modWake_freeCount (t : Nat) (f : WakeQueue → WakeQueue) : (s.modWake t f).freeCount = s.freeCount := rfl
@[simp] theorem modWake_pages (t : Nat) (f : WakeQueue → WakeQueue) : (s.modWake t f).pages = s.pages := rfl
@[simp] theorem modWake_irq (t : Nat) (f : WakeQueue → WakeQueue) : (s.modWake t f).irq = s.irq := rfl
@[simp] theorem modWake_mt (t : Nat) (f : WakeQueue → WakeQueue) : (s.modWake t f).mt = s.mt := rfl
@[simp] theorem modWake_cals (t : Nat) (f : WakeQueue → WakeQueue) : (s.modWake t f).cals = s.cals := rfl
@[simp] theorem modWake_clusters (t : Nat) (f : WakeQueue → WakeQueue) : (s.modWake t f).clusters = s.clusters := rfl
@[simp] theorem modWake_probes (t : Nat) (f : WakeQueue → WakeQueue) : (s.modWake t f).probes = s.probes := rfl
@[simp] theorem modWake_flights (t : Nat) (f : WakeQueue → WakeQueue) : (s.modWake t f).flights = s.flights := rfl
@[simp] theorem modWake_lanes (t : Nat) (f : WakeQueue → WakeQueue) : (s.modWake t f).lanes = s.lanes := rfl
@[simp] theorem modWake_regions (t : Nat) (f : WakeQueue → WakeQueue) : (s.modWake t f).regions = s.regions := rfl
@[simp] theorem modWake_mem (t : Nat) (f : WakeQueue → WakeQueue) : (s.modWake t f).mem = s.mem := rfl
@[simp] theorem modWake_host (t : Nat) (f : WakeQueue → WakeQueue) : (s.modWake t f).host = s.host := rfl
@[simp] theorem modWake_boot (t : Nat) (f : WakeQueue → WakeQueue) : (s.modWake t f).boot = s.boot := rfl
@[simp] theorem modWake_ident (t : Nat) (f : WakeQueue → WakeQueue) : (s.modWake t f).ident = s.ident := rfl
@[simp] theorem modWake_custody (t : Nat) (f : WakeQueue → WakeQueue) : (s.modWake t f).custody = s.custody := rfl
@[simp] theorem modWake_bridle (t : Nat) (f : WakeQueue → WakeQueue) : (s.modWake t f).bridle = s.bridle := rfl
@[simp] theorem modWake_mesh (t : Nat) (f : WakeQueue → WakeQueue) : (s.modWake t f).mesh = s.mesh := rfl
@[simp] theorem modWake_cinch (t : Nat) (f : WakeQueue → WakeQueue) : (s.modWake t f).cinch = s.cinch := rfl
@[simp] theorem modWake_harness (t : Nat) (f : WakeQueue → WakeQueue) : (s.modWake t f).harness = s.harness := rfl
@[simp] theorem modWake_ready (t : Nat) (f : WakeQueue → WakeQueue) : (s.modWake t f).ready = s.ready := rfl
@[simp] theorem modWake_spares (t : Nat) (f : WakeQueue → WakeQueue) : (s.modWake t f).spares = s.spares := rfl
@[simp] theorem modWake_tests (t : Nat) (f : WakeQueue → WakeQueue) : (s.modWake t f).tests = s.tests := rfl
@[simp] theorem modWake_energy (t : Nat) (f : WakeQueue → WakeQueue) : (s.modWake t f).energy = s.energy := rfl
@[simp] theorem modWake_moved (t : Nat) (f : WakeQueue → WakeQueue) : (s.modWake t f).moved = s.moved := rfl

@[simp] theorem modRouter_pending (r : Nat) (f : RouterState → RouterState) : (s.modRouter r f).pending = s.pending := rfl
@[simp] theorem modRouter_out (r : Nat) (f : RouterState → RouterState) : (s.modRouter r f).out = s.out := rfl
@[simp] theorem modRouter_clock (r : Nat) (f : RouterState → RouterState) : (s.modRouter r f).clock = s.clock := rfl
@[simp] theorem modRouter_beats (r : Nat) (f : RouterState → RouterState) : (s.modRouter r f).beats = s.beats := rfl
@[simp] theorem modRouter_mgmtClock (r : Nat) (f : RouterState → RouterState) : (s.modRouter r f).mgmtClock = s.mgmtClock := rfl
@[simp] theorem modRouter_freeCount (r : Nat) (f : RouterState → RouterState) : (s.modRouter r f).freeCount = s.freeCount := rfl
@[simp] theorem modRouter_pages (r : Nat) (f : RouterState → RouterState) : (s.modRouter r f).pages = s.pages := rfl
@[simp] theorem modRouter_irq (r : Nat) (f : RouterState → RouterState) : (s.modRouter r f).irq = s.irq := rfl
@[simp] theorem modRouter_mt (r : Nat) (f : RouterState → RouterState) : (s.modRouter r f).mt = s.mt := rfl
@[simp] theorem modRouter_cals (r : Nat) (f : RouterState → RouterState) : (s.modRouter r f).cals = s.cals := rfl
@[simp] theorem modRouter_clusters (r : Nat) (f : RouterState → RouterState) : (s.modRouter r f).clusters = s.clusters := rfl
@[simp] theorem modRouter_probes (r : Nat) (f : RouterState → RouterState) : (s.modRouter r f).probes = s.probes := rfl
@[simp] theorem modRouter_flights (r : Nat) (f : RouterState → RouterState) : (s.modRouter r f).flights = s.flights := rfl
@[simp] theorem modRouter_lanes (r : Nat) (f : RouterState → RouterState) : (s.modRouter r f).lanes = s.lanes := rfl
@[simp] theorem modRouter_regions (r : Nat) (f : RouterState → RouterState) : (s.modRouter r f).regions = s.regions := rfl
@[simp] theorem modRouter_mem (r : Nat) (f : RouterState → RouterState) : (s.modRouter r f).mem = s.mem := rfl
@[simp] theorem modRouter_host (r : Nat) (f : RouterState → RouterState) : (s.modRouter r f).host = s.host := rfl
@[simp] theorem modRouter_boot (r : Nat) (f : RouterState → RouterState) : (s.modRouter r f).boot = s.boot := rfl
@[simp] theorem modRouter_ident (r : Nat) (f : RouterState → RouterState) : (s.modRouter r f).ident = s.ident := rfl
@[simp] theorem modRouter_custody (r : Nat) (f : RouterState → RouterState) : (s.modRouter r f).custody = s.custody := rfl
@[simp] theorem modRouter_bridle (r : Nat) (f : RouterState → RouterState) : (s.modRouter r f).bridle = s.bridle := rfl
@[simp] theorem modRouter_cinch (r : Nat) (f : RouterState → RouterState) : (s.modRouter r f).cinch = s.cinch := rfl
@[simp] theorem modRouter_wakes (r : Nat) (f : RouterState → RouterState) : (s.modRouter r f).wakes = s.wakes := rfl
@[simp] theorem modRouter_harness (r : Nat) (f : RouterState → RouterState) : (s.modRouter r f).harness = s.harness := rfl
@[simp] theorem modRouter_ready (r : Nat) (f : RouterState → RouterState) : (s.modRouter r f).ready = s.ready := rfl
@[simp] theorem modRouter_spares (r : Nat) (f : RouterState → RouterState) : (s.modRouter r f).spares = s.spares := rfl
@[simp] theorem modRouter_tests (r : Nat) (f : RouterState → RouterState) : (s.modRouter r f).tests = s.tests := rfl
@[simp] theorem modRouter_energy (r : Nat) (f : RouterState → RouterState) : (s.modRouter r f).energy = s.energy := rfl
@[simp] theorem modRouter_moved (r : Nat) (f : RouterState → RouterState) : (s.modRouter r f).moved = s.moved := rfl

@[simp] theorem modArb_pending (k : Nat) (f : Arbiter → Arbiter) : (s.modArb k f).pending = s.pending := rfl
@[simp] theorem modArb_out (k : Nat) (f : Arbiter → Arbiter) : (s.modArb k f).out = s.out := rfl
@[simp] theorem modArb_clock (k : Nat) (f : Arbiter → Arbiter) : (s.modArb k f).clock = s.clock := rfl
@[simp] theorem modArb_beats (k : Nat) (f : Arbiter → Arbiter) : (s.modArb k f).beats = s.beats := rfl
@[simp] theorem modArb_mgmtClock (k : Nat) (f : Arbiter → Arbiter) : (s.modArb k f).mgmtClock = s.mgmtClock := rfl
@[simp] theorem modArb_freeCount (k : Nat) (f : Arbiter → Arbiter) : (s.modArb k f).freeCount = s.freeCount := rfl
@[simp] theorem modArb_pages (k : Nat) (f : Arbiter → Arbiter) : (s.modArb k f).pages = s.pages := rfl
@[simp] theorem modArb_irq (k : Nat) (f : Arbiter → Arbiter) : (s.modArb k f).irq = s.irq := rfl
@[simp] theorem modArb_mt (k : Nat) (f : Arbiter → Arbiter) : (s.modArb k f).mt = s.mt := rfl
@[simp] theorem modArb_cals (k : Nat) (f : Arbiter → Arbiter) : (s.modArb k f).cals = s.cals := rfl
@[simp] theorem modArb_probes (k : Nat) (f : Arbiter → Arbiter) : (s.modArb k f).probes = s.probes := rfl
@[simp] theorem modArb_flights (k : Nat) (f : Arbiter → Arbiter) : (s.modArb k f).flights = s.flights := rfl
@[simp] theorem modArb_lanes (k : Nat) (f : Arbiter → Arbiter) : (s.modArb k f).lanes = s.lanes := rfl
@[simp] theorem modArb_regions (k : Nat) (f : Arbiter → Arbiter) : (s.modArb k f).regions = s.regions := rfl
@[simp] theorem modArb_mem (k : Nat) (f : Arbiter → Arbiter) : (s.modArb k f).mem = s.mem := rfl
@[simp] theorem modArb_host (k : Nat) (f : Arbiter → Arbiter) : (s.modArb k f).host = s.host := rfl
@[simp] theorem modArb_boot (k : Nat) (f : Arbiter → Arbiter) : (s.modArb k f).boot = s.boot := rfl
@[simp] theorem modArb_ident (k : Nat) (f : Arbiter → Arbiter) : (s.modArb k f).ident = s.ident := rfl
@[simp] theorem modArb_custody (k : Nat) (f : Arbiter → Arbiter) : (s.modArb k f).custody = s.custody := rfl
@[simp] theorem modArb_bridle (k : Nat) (f : Arbiter → Arbiter) : (s.modArb k f).bridle = s.bridle := rfl
@[simp] theorem modArb_mesh (k : Nat) (f : Arbiter → Arbiter) : (s.modArb k f).mesh = s.mesh := rfl
@[simp] theorem modArb_cinch (k : Nat) (f : Arbiter → Arbiter) : (s.modArb k f).cinch = s.cinch := rfl
@[simp] theorem modArb_wakes (k : Nat) (f : Arbiter → Arbiter) : (s.modArb k f).wakes = s.wakes := rfl
@[simp] theorem modArb_harness (k : Nat) (f : Arbiter → Arbiter) : (s.modArb k f).harness = s.harness := rfl
@[simp] theorem modArb_ready (k : Nat) (f : Arbiter → Arbiter) : (s.modArb k f).ready = s.ready := rfl
@[simp] theorem modArb_spares (k : Nat) (f : Arbiter → Arbiter) : (s.modArb k f).spares = s.spares := rfl
@[simp] theorem modArb_tests (k : Nat) (f : Arbiter → Arbiter) : (s.modArb k f).tests = s.tests := rfl
@[simp] theorem modArb_energy (k : Nat) (f : Arbiter → Arbiter) : (s.modArb k f).energy = s.energy := rfl
@[simp] theorem modArb_moved (k : Nat) (f : Arbiter → Arbiter) : (s.modArb k f).moved = s.moved := rfl

@[simp] theorem modLink_pending (l : Nat) (f : Link → Link) : (s.modLink l f).pending = s.pending := rfl
@[simp] theorem modLink_out (l : Nat) (f : Link → Link) : (s.modLink l f).out = s.out := rfl
@[simp] theorem modLink_clock (l : Nat) (f : Link → Link) : (s.modLink l f).clock = s.clock := rfl
@[simp] theorem modLink_beats (l : Nat) (f : Link → Link) : (s.modLink l f).beats = s.beats := rfl
@[simp] theorem modLink_mgmtClock (l : Nat) (f : Link → Link) : (s.modLink l f).mgmtClock = s.mgmtClock := rfl
@[simp] theorem modLink_freeCount (l : Nat) (f : Link → Link) : (s.modLink l f).freeCount = s.freeCount := rfl
@[simp] theorem modLink_pages (l : Nat) (f : Link → Link) : (s.modLink l f).pages = s.pages := rfl
@[simp] theorem modLink_irq (l : Nat) (f : Link → Link) : (s.modLink l f).irq = s.irq := rfl
@[simp] theorem modLink_mt (l : Nat) (f : Link → Link) : (s.modLink l f).mt = s.mt := rfl
@[simp] theorem modLink_cals (l : Nat) (f : Link → Link) : (s.modLink l f).cals = s.cals := rfl
@[simp] theorem modLink_clusters (l : Nat) (f : Link → Link) : (s.modLink l f).clusters = s.clusters := rfl
@[simp] theorem modLink_probes (l : Nat) (f : Link → Link) : (s.modLink l f).probes = s.probes := rfl
@[simp] theorem modLink_flights (l : Nat) (f : Link → Link) : (s.modLink l f).flights = s.flights := rfl
@[simp] theorem modLink_lanes (l : Nat) (f : Link → Link) : (s.modLink l f).lanes = s.lanes := rfl
@[simp] theorem modLink_regions (l : Nat) (f : Link → Link) : (s.modLink l f).regions = s.regions := rfl
@[simp] theorem modLink_mem (l : Nat) (f : Link → Link) : (s.modLink l f).mem = s.mem := rfl
@[simp] theorem modLink_host (l : Nat) (f : Link → Link) : (s.modLink l f).host = s.host := rfl
@[simp] theorem modLink_boot (l : Nat) (f : Link → Link) : (s.modLink l f).boot = s.boot := rfl
@[simp] theorem modLink_ident (l : Nat) (f : Link → Link) : (s.modLink l f).ident = s.ident := rfl
@[simp] theorem modLink_custody (l : Nat) (f : Link → Link) : (s.modLink l f).custody = s.custody := rfl
@[simp] theorem modLink_bridle (l : Nat) (f : Link → Link) : (s.modLink l f).bridle = s.bridle := rfl
@[simp] theorem modLink_mesh (l : Nat) (f : Link → Link) : (s.modLink l f).mesh = s.mesh := rfl
@[simp] theorem modLink_cinch (l : Nat) (f : Link → Link) : (s.modLink l f).cinch = s.cinch := rfl
@[simp] theorem modLink_wakes (l : Nat) (f : Link → Link) : (s.modLink l f).wakes = s.wakes := rfl
@[simp] theorem modLink_ready (l : Nat) (f : Link → Link) : (s.modLink l f).ready = s.ready := rfl
@[simp] theorem modLink_spares (l : Nat) (f : Link → Link) : (s.modLink l f).spares = s.spares := rfl
@[simp] theorem modLink_tests (l : Nat) (f : Link → Link) : (s.modLink l f).tests = s.tests := rfl
@[simp] theorem modLink_energy (l : Nat) (f : Link → Link) : (s.modLink l f).energy = s.energy := rfl
@[simp] theorem modLink_moved (l : Nat) (f : Link → Link) : (s.modLink l f).moved = s.moved := rfl

@[simp] theorem modBoot_pending (f : Boot → Boot) : (s.modBoot f).pending = s.pending := rfl
@[simp] theorem modBoot_out (f : Boot → Boot) : (s.modBoot f).out = s.out := rfl
@[simp] theorem modBoot_clock (f : Boot → Boot) : (s.modBoot f).clock = s.clock := rfl
@[simp] theorem modBoot_beats (f : Boot → Boot) : (s.modBoot f).beats = s.beats := rfl
@[simp] theorem modBoot_mgmtClock (f : Boot → Boot) : (s.modBoot f).mgmtClock = s.mgmtClock := rfl
@[simp] theorem modBoot_freeCount (f : Boot → Boot) : (s.modBoot f).freeCount = s.freeCount := rfl
@[simp] theorem modBoot_pages (f : Boot → Boot) : (s.modBoot f).pages = s.pages := rfl
@[simp] theorem modBoot_irq (f : Boot → Boot) : (s.modBoot f).irq = s.irq := rfl
@[simp] theorem modBoot_mt (f : Boot → Boot) : (s.modBoot f).mt = s.mt := rfl
@[simp] theorem modBoot_cals (f : Boot → Boot) : (s.modBoot f).cals = s.cals := rfl
@[simp] theorem modBoot_clusters (f : Boot → Boot) : (s.modBoot f).clusters = s.clusters := rfl
@[simp] theorem modBoot_probes (f : Boot → Boot) : (s.modBoot f).probes = s.probes := rfl
@[simp] theorem modBoot_flights (f : Boot → Boot) : (s.modBoot f).flights = s.flights := rfl
@[simp] theorem modBoot_lanes (f : Boot → Boot) : (s.modBoot f).lanes = s.lanes := rfl
@[simp] theorem modBoot_regions (f : Boot → Boot) : (s.modBoot f).regions = s.regions := rfl
@[simp] theorem modBoot_mem (f : Boot → Boot) : (s.modBoot f).mem = s.mem := rfl
@[simp] theorem modBoot_host (f : Boot → Boot) : (s.modBoot f).host = s.host := rfl
@[simp] theorem modBoot_ident (f : Boot → Boot) : (s.modBoot f).ident = s.ident := rfl
@[simp] theorem modBoot_custody (f : Boot → Boot) : (s.modBoot f).custody = s.custody := rfl
@[simp] theorem modBoot_bridle (f : Boot → Boot) : (s.modBoot f).bridle = s.bridle := rfl
@[simp] theorem modBoot_mesh (f : Boot → Boot) : (s.modBoot f).mesh = s.mesh := rfl
@[simp] theorem modBoot_cinch (f : Boot → Boot) : (s.modBoot f).cinch = s.cinch := rfl
@[simp] theorem modBoot_wakes (f : Boot → Boot) : (s.modBoot f).wakes = s.wakes := rfl
@[simp] theorem modBoot_harness (f : Boot → Boot) : (s.modBoot f).harness = s.harness := rfl
@[simp] theorem modBoot_ready (f : Boot → Boot) : (s.modBoot f).ready = s.ready := rfl
@[simp] theorem modBoot_spares (f : Boot → Boot) : (s.modBoot f).spares = s.spares := rfl
@[simp] theorem modBoot_tests (f : Boot → Boot) : (s.modBoot f).tests = s.tests := rfl
@[simp] theorem modBoot_energy (f : Boot → Boot) : (s.modBoot f).energy = s.energy := rfl
@[simp] theorem modBoot_moved (f : Boot → Boot) : (s.modBoot f).moved = s.moved := rfl

@[simp] theorem modIdent_pending (f : Identity → Identity) : (s.modIdent f).pending = s.pending := rfl
@[simp] theorem modIdent_out (f : Identity → Identity) : (s.modIdent f).out = s.out := rfl
@[simp] theorem modIdent_clock (f : Identity → Identity) : (s.modIdent f).clock = s.clock := rfl
@[simp] theorem modIdent_beats (f : Identity → Identity) : (s.modIdent f).beats = s.beats := rfl
@[simp] theorem modIdent_mgmtClock (f : Identity → Identity) : (s.modIdent f).mgmtClock = s.mgmtClock := rfl
@[simp] theorem modIdent_freeCount (f : Identity → Identity) : (s.modIdent f).freeCount = s.freeCount := rfl
@[simp] theorem modIdent_pages (f : Identity → Identity) : (s.modIdent f).pages = s.pages := rfl
@[simp] theorem modIdent_irq (f : Identity → Identity) : (s.modIdent f).irq = s.irq := rfl
@[simp] theorem modIdent_mt (f : Identity → Identity) : (s.modIdent f).mt = s.mt := rfl
@[simp] theorem modIdent_cals (f : Identity → Identity) : (s.modIdent f).cals = s.cals := rfl
@[simp] theorem modIdent_clusters (f : Identity → Identity) : (s.modIdent f).clusters = s.clusters := rfl
@[simp] theorem modIdent_probes (f : Identity → Identity) : (s.modIdent f).probes = s.probes := rfl
@[simp] theorem modIdent_flights (f : Identity → Identity) : (s.modIdent f).flights = s.flights := rfl
@[simp] theorem modIdent_lanes (f : Identity → Identity) : (s.modIdent f).lanes = s.lanes := rfl
@[simp] theorem modIdent_regions (f : Identity → Identity) : (s.modIdent f).regions = s.regions := rfl
@[simp] theorem modIdent_mem (f : Identity → Identity) : (s.modIdent f).mem = s.mem := rfl
@[simp] theorem modIdent_host (f : Identity → Identity) : (s.modIdent f).host = s.host := rfl
@[simp] theorem modIdent_boot (f : Identity → Identity) : (s.modIdent f).boot = s.boot := rfl
@[simp] theorem modIdent_custody (f : Identity → Identity) : (s.modIdent f).custody = s.custody := rfl
@[simp] theorem modIdent_bridle (f : Identity → Identity) : (s.modIdent f).bridle = s.bridle := rfl
@[simp] theorem modIdent_mesh (f : Identity → Identity) : (s.modIdent f).mesh = s.mesh := rfl
@[simp] theorem modIdent_cinch (f : Identity → Identity) : (s.modIdent f).cinch = s.cinch := rfl
@[simp] theorem modIdent_wakes (f : Identity → Identity) : (s.modIdent f).wakes = s.wakes := rfl
@[simp] theorem modIdent_harness (f : Identity → Identity) : (s.modIdent f).harness = s.harness := rfl
@[simp] theorem modIdent_ready (f : Identity → Identity) : (s.modIdent f).ready = s.ready := rfl
@[simp] theorem modIdent_spares (f : Identity → Identity) : (s.modIdent f).spares = s.spares := rfl
@[simp] theorem modIdent_tests (f : Identity → Identity) : (s.modIdent f).tests = s.tests := rfl
@[simp] theorem modIdent_energy (f : Identity → Identity) : (s.modIdent f).energy = s.energy := rfl
@[simp] theorem modIdent_moved (f : Identity → Identity) : (s.modIdent f).moved = s.moved := rfl

@[simp] theorem modCustody_pending (f : Custody → Custody) : (s.modCustody f).pending = s.pending := rfl
@[simp] theorem modCustody_out (f : Custody → Custody) : (s.modCustody f).out = s.out := rfl
@[simp] theorem modCustody_clock (f : Custody → Custody) : (s.modCustody f).clock = s.clock := rfl
@[simp] theorem modCustody_beats (f : Custody → Custody) : (s.modCustody f).beats = s.beats := rfl
@[simp] theorem modCustody_mgmtClock (f : Custody → Custody) : (s.modCustody f).mgmtClock = s.mgmtClock := rfl
@[simp] theorem modCustody_freeCount (f : Custody → Custody) : (s.modCustody f).freeCount = s.freeCount := rfl
@[simp] theorem modCustody_pages (f : Custody → Custody) : (s.modCustody f).pages = s.pages := rfl
@[simp] theorem modCustody_irq (f : Custody → Custody) : (s.modCustody f).irq = s.irq := rfl
@[simp] theorem modCustody_mt (f : Custody → Custody) : (s.modCustody f).mt = s.mt := rfl
@[simp] theorem modCustody_cals (f : Custody → Custody) : (s.modCustody f).cals = s.cals := rfl
@[simp] theorem modCustody_clusters (f : Custody → Custody) : (s.modCustody f).clusters = s.clusters := rfl
@[simp] theorem modCustody_probes (f : Custody → Custody) : (s.modCustody f).probes = s.probes := rfl
@[simp] theorem modCustody_flights (f : Custody → Custody) : (s.modCustody f).flights = s.flights := rfl
@[simp] theorem modCustody_lanes (f : Custody → Custody) : (s.modCustody f).lanes = s.lanes := rfl
@[simp] theorem modCustody_regions (f : Custody → Custody) : (s.modCustody f).regions = s.regions := rfl
@[simp] theorem modCustody_mem (f : Custody → Custody) : (s.modCustody f).mem = s.mem := rfl
@[simp] theorem modCustody_host (f : Custody → Custody) : (s.modCustody f).host = s.host := rfl
@[simp] theorem modCustody_boot (f : Custody → Custody) : (s.modCustody f).boot = s.boot := rfl
@[simp] theorem modCustody_ident (f : Custody → Custody) : (s.modCustody f).ident = s.ident := rfl
@[simp] theorem modCustody_bridle (f : Custody → Custody) : (s.modCustody f).bridle = s.bridle := rfl
@[simp] theorem modCustody_mesh (f : Custody → Custody) : (s.modCustody f).mesh = s.mesh := rfl
@[simp] theorem modCustody_cinch (f : Custody → Custody) : (s.modCustody f).cinch = s.cinch := rfl
@[simp] theorem modCustody_wakes (f : Custody → Custody) : (s.modCustody f).wakes = s.wakes := rfl
@[simp] theorem modCustody_harness (f : Custody → Custody) : (s.modCustody f).harness = s.harness := rfl
@[simp] theorem modCustody_ready (f : Custody → Custody) : (s.modCustody f).ready = s.ready := rfl
@[simp] theorem modCustody_spares (f : Custody → Custody) : (s.modCustody f).spares = s.spares := rfl
@[simp] theorem modCustody_tests (f : Custody → Custody) : (s.modCustody f).tests = s.tests := rfl
@[simp] theorem modCustody_energy (f : Custody → Custody) : (s.modCustody f).energy = s.energy := rfl
@[simp] theorem modCustody_moved (f : Custody → Custody) : (s.modCustody f).moved = s.moved := rfl

@[simp] theorem modBridle_pending (f : Bridle → Bridle) : (s.modBridle f).pending = s.pending := rfl
@[simp] theorem modBridle_out (f : Bridle → Bridle) : (s.modBridle f).out = s.out := rfl
@[simp] theorem modBridle_clock (f : Bridle → Bridle) : (s.modBridle f).clock = s.clock := rfl
@[simp] theorem modBridle_beats (f : Bridle → Bridle) : (s.modBridle f).beats = s.beats := rfl
@[simp] theorem modBridle_mgmtClock (f : Bridle → Bridle) : (s.modBridle f).mgmtClock = s.mgmtClock := rfl
@[simp] theorem modBridle_freeCount (f : Bridle → Bridle) : (s.modBridle f).freeCount = s.freeCount := rfl
@[simp] theorem modBridle_pages (f : Bridle → Bridle) : (s.modBridle f).pages = s.pages := rfl
@[simp] theorem modBridle_irq (f : Bridle → Bridle) : (s.modBridle f).irq = s.irq := rfl
@[simp] theorem modBridle_mt (f : Bridle → Bridle) : (s.modBridle f).mt = s.mt := rfl
@[simp] theorem modBridle_cals (f : Bridle → Bridle) : (s.modBridle f).cals = s.cals := rfl
@[simp] theorem modBridle_clusters (f : Bridle → Bridle) : (s.modBridle f).clusters = s.clusters := rfl
@[simp] theorem modBridle_probes (f : Bridle → Bridle) : (s.modBridle f).probes = s.probes := rfl
@[simp] theorem modBridle_flights (f : Bridle → Bridle) : (s.modBridle f).flights = s.flights := rfl
@[simp] theorem modBridle_lanes (f : Bridle → Bridle) : (s.modBridle f).lanes = s.lanes := rfl
@[simp] theorem modBridle_regions (f : Bridle → Bridle) : (s.modBridle f).regions = s.regions := rfl
@[simp] theorem modBridle_mem (f : Bridle → Bridle) : (s.modBridle f).mem = s.mem := rfl
@[simp] theorem modBridle_host (f : Bridle → Bridle) : (s.modBridle f).host = s.host := rfl
@[simp] theorem modBridle_boot (f : Bridle → Bridle) : (s.modBridle f).boot = s.boot := rfl
@[simp] theorem modBridle_ident (f : Bridle → Bridle) : (s.modBridle f).ident = s.ident := rfl
@[simp] theorem modBridle_custody (f : Bridle → Bridle) : (s.modBridle f).custody = s.custody := rfl
@[simp] theorem modBridle_mesh (f : Bridle → Bridle) : (s.modBridle f).mesh = s.mesh := rfl
@[simp] theorem modBridle_cinch (f : Bridle → Bridle) : (s.modBridle f).cinch = s.cinch := rfl
@[simp] theorem modBridle_wakes (f : Bridle → Bridle) : (s.modBridle f).wakes = s.wakes := rfl
@[simp] theorem modBridle_harness (f : Bridle → Bridle) : (s.modBridle f).harness = s.harness := rfl
@[simp] theorem modBridle_ready (f : Bridle → Bridle) : (s.modBridle f).ready = s.ready := rfl
@[simp] theorem modBridle_spares (f : Bridle → Bridle) : (s.modBridle f).spares = s.spares := rfl
@[simp] theorem modBridle_tests (f : Bridle → Bridle) : (s.modBridle f).tests = s.tests := rfl
@[simp] theorem modBridle_energy (f : Bridle → Bridle) : (s.modBridle f).energy = s.energy := rfl
@[simp] theorem modBridle_moved (f : Bridle → Bridle) : (s.modBridle f).moved = s.moved := rfl

end Sys2Proof.Machine.State
end

