-- ==== Sys2Proof/Laws/Time.lean ====
section
/-! SUPPORT. What letting time pass does: it changes the clock, machine time, the beats passed, the counters in the pages,
the meters, and the bytes moved in the present beat, and nothing else. -/
namespace Sys2Proof.Machine.State

theorem passBeats_pending (n : Nat) (s : State) : (passBeats n s).pending = s.pending := by
  induction n generalizing s with
  | zero => rfl
  | succ n ih => rw [passBeats, ih]; rfl
theorem passBeats_out (n : Nat) (s : State) : (passBeats n s).out = s.out := by
  induction n generalizing s with
  | zero => rfl
  | succ n ih => rw [passBeats, ih]; rfl
theorem passBeats_mgmtClock (n : Nat) (s : State) : (passBeats n s).mgmtClock = s.mgmtClock := by
  induction n generalizing s with
  | zero => rfl
  | succ n ih => rw [passBeats, ih]; rfl
theorem passBeats_freeCount (n : Nat) (s : State) : (passBeats n s).freeCount = s.freeCount := by
  induction n generalizing s with
  | zero => rfl
  | succ n ih => rw [passBeats, ih]; rfl
theorem passBeats_irq (n : Nat) (s : State) : (passBeats n s).irq = s.irq := by
  induction n generalizing s with
  | zero => rfl
  | succ n ih => rw [passBeats, ih]; rfl
theorem passBeats_cals (n : Nat) (s : State) : (passBeats n s).cals = s.cals := by
  induction n generalizing s with
  | zero => rfl
  | succ n ih => rw [passBeats, ih]; rfl
theorem passBeats_clusters (n : Nat) (s : State) : (passBeats n s).clusters = s.clusters := by
  induction n generalizing s with
  | zero => rfl
  | succ n ih => rw [passBeats, ih]; rfl
theorem passBeats_probes (n : Nat) (s : State) : (passBeats n s).probes = s.probes := by
  induction n generalizing s with
  | zero => rfl
  | succ n ih => rw [passBeats, ih]; rfl
theorem passBeats_flights (n : Nat) (s : State) : (passBeats n s).flights = s.flights := by
  induction n generalizing s with
  | zero => rfl
  | succ n ih => rw [passBeats, ih]; rfl
theorem passBeats_lanes (n : Nat) (s : State) : (passBeats n s).lanes = s.lanes := by
  induction n generalizing s with
  | zero => rfl
  | succ n ih => rw [passBeats, ih]; rfl
theorem passBeats_regions (n : Nat) (s : State) : (passBeats n s).regions = s.regions := by
  induction n generalizing s with
  | zero => rfl
  | succ n ih => rw [passBeats, ih]; rfl
theorem passBeats_mem (n : Nat) (s : State) : (passBeats n s).mem = s.mem := by
  induction n generalizing s with
  | zero => rfl
  | succ n ih => rw [passBeats, ih]; rfl
theorem passBeats_host (n : Nat) (s : State) : (passBeats n s).host = s.host := by
  induction n generalizing s with
  | zero => rfl
  | succ n ih => rw [passBeats, ih]; rfl
theorem passBeats_boot (n : Nat) (s : State) : (passBeats n s).boot = s.boot := by
  induction n generalizing s with
  | zero => rfl
  | succ n ih => rw [passBeats, ih]; rfl
theorem passBeats_ident (n : Nat) (s : State) : (passBeats n s).ident = s.ident := by
  induction n generalizing s with
  | zero => rfl
  | succ n ih => rw [passBeats, ih]; rfl
theorem passBeats_custody (n : Nat) (s : State) : (passBeats n s).custody = s.custody := by
  induction n generalizing s with
  | zero => rfl
  | succ n ih => rw [passBeats, ih]; rfl
theorem passBeats_bridle (n : Nat) (s : State) : (passBeats n s).bridle = s.bridle := by
  induction n generalizing s with
  | zero => rfl
  | succ n ih => rw [passBeats, ih]; rfl
theorem passBeats_mesh (n : Nat) (s : State) : (passBeats n s).mesh = s.mesh := by
  induction n generalizing s with
  | zero => rfl
  | succ n ih => rw [passBeats, ih]; rfl
theorem passBeats_cinch (n : Nat) (s : State) : (passBeats n s).cinch = s.cinch := by
  induction n generalizing s with
  | zero => rfl
  | succ n ih => rw [passBeats, ih]; rfl
theorem passBeats_wakes (n : Nat) (s : State) : (passBeats n s).wakes = s.wakes := by
  induction n generalizing s with
  | zero => rfl
  | succ n ih => rw [passBeats, ih]; rfl
theorem passBeats_harness (n : Nat) (s : State) : (passBeats n s).harness = s.harness := by
  induction n generalizing s with
  | zero => rfl
  | succ n ih => rw [passBeats, ih]; rfl
theorem passBeats_ready (n : Nat) (s : State) : (passBeats n s).ready = s.ready := by
  induction n generalizing s with
  | zero => rfl
  | succ n ih => rw [passBeats, ih]; rfl
theorem passBeats_spares (n : Nat) (s : State) : (passBeats n s).spares = s.spares := by
  induction n generalizing s with
  | zero => rfl
  | succ n ih => rw [passBeats, ih]; rfl
theorem passBeats_tests (n : Nat) (s : State) : (passBeats n s).tests = s.tests := by
  induction n generalizing s with
  | zero => rfl
  | succ n ih => rw [passBeats, ih]; rfl

@[simp] theorem advance_pending (s : State) (d : Nat) : (s.advance d).pending = s.pending := passBeats_pending _ _
@[simp] theorem advance_out (s : State) (d : Nat) : (s.advance d).out = s.out := passBeats_out _ _
@[simp] theorem advance_mgmtClock (s : State) (d : Nat) : (s.advance d).mgmtClock = s.mgmtClock := passBeats_mgmtClock _ _
@[simp] theorem advance_freeCount (s : State) (d : Nat) : (s.advance d).freeCount = s.freeCount := passBeats_freeCount _ _
@[simp] theorem advance_irq (s : State) (d : Nat) : (s.advance d).irq = s.irq := passBeats_irq _ _
@[simp] theorem advance_cals (s : State) (d : Nat) : (s.advance d).cals = s.cals := passBeats_cals _ _
@[simp] theorem advance_clusters (s : State) (d : Nat) : (s.advance d).clusters = s.clusters := passBeats_clusters _ _
@[simp] theorem advance_probes (s : State) (d : Nat) : (s.advance d).probes = s.probes := passBeats_probes _ _
@[simp] theorem advance_flights (s : State) (d : Nat) : (s.advance d).flights = s.flights := passBeats_flights _ _
@[simp] theorem advance_lanes (s : State) (d : Nat) : (s.advance d).lanes = s.lanes := passBeats_lanes _ _
@[simp] theorem advance_regions (s : State) (d : Nat) : (s.advance d).regions = s.regions := passBeats_regions _ _
@[simp] theorem advance_mem (s : State) (d : Nat) : (s.advance d).mem = s.mem := passBeats_mem _ _
@[simp] theorem advance_host (s : State) (d : Nat) : (s.advance d).host = s.host := passBeats_host _ _
@[simp] theorem advance_boot (s : State) (d : Nat) : (s.advance d).boot = s.boot := passBeats_boot _ _
@[simp] theorem advance_ident (s : State) (d : Nat) : (s.advance d).ident = s.ident := passBeats_ident _ _
@[simp] theorem advance_custody (s : State) (d : Nat) : (s.advance d).custody = s.custody := passBeats_custody _ _
@[simp] theorem advance_bridle (s : State) (d : Nat) : (s.advance d).bridle = s.bridle := passBeats_bridle _ _
@[simp] theorem advance_mesh (s : State) (d : Nat) : (s.advance d).mesh = s.mesh := passBeats_mesh _ _
@[simp] theorem advance_cinch (s : State) (d : Nat) : (s.advance d).cinch = s.cinch := passBeats_cinch _ _
@[simp] theorem advance_wakes (s : State) (d : Nat) : (s.advance d).wakes = s.wakes := passBeats_wakes _ _
@[simp] theorem advance_harness (s : State) (d : Nat) : (s.advance d).harness = s.harness := passBeats_harness _ _
@[simp] theorem advance_ready (s : State) (d : Nat) : (s.advance d).ready = s.ready := passBeats_ready _ _
@[simp] theorem advance_spares (s : State) (d : Nat) : (s.advance d).spares = s.spares := passBeats_spares _ _
@[simp] theorem advance_tests (s : State) (d : Nat) : (s.advance d).tests = s.tests := passBeats_tests _ _

@[simp] theorem reachClock_pending (s : State) (c : Nat) : (s.reachClock c).pending = s.pending := advance_pending _ _
@[simp] theorem reachClock_out (s : State) (c : Nat) : (s.reachClock c).out = s.out := advance_out _ _
@[simp] theorem reachClock_mgmtClock (s : State) (c : Nat) : (s.reachClock c).mgmtClock = s.mgmtClock := advance_mgmtClock _ _
@[simp] theorem reachClock_freeCount (s : State) (c : Nat) : (s.reachClock c).freeCount = s.freeCount := advance_freeCount _ _
@[simp] theorem reachClock_irq (s : State) (c : Nat) : (s.reachClock c).irq = s.irq := advance_irq _ _
@[simp] theorem reachClock_cals (s : State) (c : Nat) : (s.reachClock c).cals = s.cals := advance_cals _ _
@[simp] theorem reachClock_clusters (s : State) (c : Nat) : (s.reachClock c).clusters = s.clusters := advance_clusters _ _
@[simp] theorem reachClock_probes (s : State) (c : Nat) : (s.reachClock c).probes = s.probes := advance_probes _ _
@[simp] theorem reachClock_flights (s : State) (c : Nat) : (s.reachClock c).flights = s.flights := advance_flights _ _
@[simp] theorem reachClock_lanes (s : State) (c : Nat) : (s.reachClock c).lanes = s.lanes := advance_lanes _ _
@[simp] theorem reachClock_regions (s : State) (c : Nat) : (s.reachClock c).regions = s.regions := advance_regions _ _
@[simp] theorem reachClock_mem (s : State) (c : Nat) : (s.reachClock c).mem = s.mem := advance_mem _ _
@[simp] theorem reachClock_host (s : State) (c : Nat) : (s.reachClock c).host = s.host := advance_host _ _
@[simp] theorem reachClock_boot (s : State) (c : Nat) : (s.reachClock c).boot = s.boot := advance_boot _ _
@[simp] theorem reachClock_ident (s : State) (c : Nat) : (s.reachClock c).ident = s.ident := advance_ident _ _
@[simp] theorem reachClock_custody (s : State) (c : Nat) : (s.reachClock c).custody = s.custody := advance_custody _ _
@[simp] theorem reachClock_bridle (s : State) (c : Nat) : (s.reachClock c).bridle = s.bridle := advance_bridle _ _
@[simp] theorem reachClock_mesh (s : State) (c : Nat) : (s.reachClock c).mesh = s.mesh := advance_mesh _ _
@[simp] theorem reachClock_cinch (s : State) (c : Nat) : (s.reachClock c).cinch = s.cinch := advance_cinch _ _
@[simp] theorem reachClock_wakes (s : State) (c : Nat) : (s.reachClock c).wakes = s.wakes := advance_wakes _ _
@[simp] theorem reachClock_harness (s : State) (c : Nat) : (s.reachClock c).harness = s.harness := advance_harness _ _
@[simp] theorem reachClock_ready (s : State) (c : Nat) : (s.reachClock c).ready = s.ready := advance_ready _ _
@[simp] theorem reachClock_spares (s : State) (c : Nat) : (s.reachClock c).spares = s.spares := advance_spares _ _
@[simp] theorem reachClock_tests (s : State) (c : Nat) : (s.reachClock c).tests = s.tests := advance_tests _ _

@[simp] theorem reachBoundary_pending (s : State) (n : Nat) : (s.reachBoundary n).pending = s.pending := advance_pending _ _
@[simp] theorem reachBoundary_out (s : State) (n : Nat) : (s.reachBoundary n).out = s.out := advance_out _ _
@[simp] theorem reachBoundary_mgmtClock (s : State) (n : Nat) : (s.reachBoundary n).mgmtClock = s.mgmtClock := advance_mgmtClock _ _
@[simp] theorem reachBoundary_freeCount (s : State) (n : Nat) : (s.reachBoundary n).freeCount = s.freeCount := advance_freeCount _ _
@[simp] theorem reachBoundary_irq (s : State) (n : Nat) : (s.reachBoundary n).irq = s.irq := advance_irq _ _
@[simp] theorem reachBoundary_cals (s : State) (n : Nat) : (s.reachBoundary n).cals = s.cals := advance_cals _ _
@[simp] theorem reachBoundary_clusters (s : State) (n : Nat) : (s.reachBoundary n).clusters = s.clusters := advance_clusters _ _
@[simp] theorem reachBoundary_probes (s : State) (n : Nat) : (s.reachBoundary n).probes = s.probes := advance_probes _ _
@[simp] theorem reachBoundary_flights (s : State) (n : Nat) : (s.reachBoundary n).flights = s.flights := advance_flights _ _
@[simp] theorem reachBoundary_lanes (s : State) (n : Nat) : (s.reachBoundary n).lanes = s.lanes := advance_lanes _ _
@[simp] theorem reachBoundary_regions (s : State) (n : Nat) : (s.reachBoundary n).regions = s.regions := advance_regions _ _
@[simp] theorem reachBoundary_mem (s : State) (n : Nat) : (s.reachBoundary n).mem = s.mem := advance_mem _ _
@[simp] theorem reachBoundary_host (s : State) (n : Nat) : (s.reachBoundary n).host = s.host := advance_host _ _
@[simp] theorem reachBoundary_boot (s : State) (n : Nat) : (s.reachBoundary n).boot = s.boot := advance_boot _ _
@[simp] theorem reachBoundary_ident (s : State) (n : Nat) : (s.reachBoundary n).ident = s.ident := advance_ident _ _
@[simp] theorem reachBoundary_custody (s : State) (n : Nat) : (s.reachBoundary n).custody = s.custody := advance_custody _ _
@[simp] theorem reachBoundary_bridle (s : State) (n : Nat) : (s.reachBoundary n).bridle = s.bridle := advance_bridle _ _
@[simp] theorem reachBoundary_mesh (s : State) (n : Nat) : (s.reachBoundary n).mesh = s.mesh := advance_mesh _ _
@[simp] theorem reachBoundary_cinch (s : State) (n : Nat) : (s.reachBoundary n).cinch = s.cinch := advance_cinch _ _
@[simp] theorem reachBoundary_wakes (s : State) (n : Nat) : (s.reachBoundary n).wakes = s.wakes := advance_wakes _ _
@[simp] theorem reachBoundary_harness (s : State) (n : Nat) : (s.reachBoundary n).harness = s.harness := advance_harness _ _
@[simp] theorem reachBoundary_ready (s : State) (n : Nat) : (s.reachBoundary n).ready = s.ready := advance_ready _ _
@[simp] theorem reachBoundary_spares (s : State) (n : Nat) : (s.reachBoundary n).spares = s.spares := advance_spares _ _
@[simp] theorem reachBoundary_tests (s : State) (n : Nat) : (s.reachBoundary n).tests = s.tests := advance_tests _ _

@[simp] theorem reachBeat_pending (s : State) (b : BitVec 48) : (s.reachBeat b).pending = s.pending := advance_pending _ _
@[simp] theorem reachBeat_out (s : State) (b : BitVec 48) : (s.reachBeat b).out = s.out := advance_out _ _
@[simp] theorem reachBeat_mgmtClock (s : State) (b : BitVec 48) : (s.reachBeat b).mgmtClock = s.mgmtClock := advance_mgmtClock _ _
@[simp] theorem reachBeat_freeCount (s : State) (b : BitVec 48) : (s.reachBeat b).freeCount = s.freeCount := advance_freeCount _ _
@[simp] theorem reachBeat_irq (s : State) (b : BitVec 48) : (s.reachBeat b).irq = s.irq := advance_irq _ _
@[simp] theorem reachBeat_cals (s : State) (b : BitVec 48) : (s.reachBeat b).cals = s.cals := advance_cals _ _
@[simp] theorem reachBeat_clusters (s : State) (b : BitVec 48) : (s.reachBeat b).clusters = s.clusters := advance_clusters _ _
@[simp] theorem reachBeat_probes (s : State) (b : BitVec 48) : (s.reachBeat b).probes = s.probes := advance_probes _ _
@[simp] theorem reachBeat_flights (s : State) (b : BitVec 48) : (s.reachBeat b).flights = s.flights := advance_flights _ _
@[simp] theorem reachBeat_lanes (s : State) (b : BitVec 48) : (s.reachBeat b).lanes = s.lanes := advance_lanes _ _
@[simp] theorem reachBeat_regions (s : State) (b : BitVec 48) : (s.reachBeat b).regions = s.regions := advance_regions _ _
@[simp] theorem reachBeat_mem (s : State) (b : BitVec 48) : (s.reachBeat b).mem = s.mem := advance_mem _ _
@[simp] theorem reachBeat_host (s : State) (b : BitVec 48) : (s.reachBeat b).host = s.host := advance_host _ _
@[simp] theorem reachBeat_boot (s : State) (b : BitVec 48) : (s.reachBeat b).boot = s.boot := advance_boot _ _
@[simp] theorem reachBeat_ident (s : State) (b : BitVec 48) : (s.reachBeat b).ident = s.ident := advance_ident _ _
@[simp] theorem reachBeat_custody (s : State) (b : BitVec 48) : (s.reachBeat b).custody = s.custody := advance_custody _ _
@[simp] theorem reachBeat_bridle (s : State) (b : BitVec 48) : (s.reachBeat b).bridle = s.bridle := advance_bridle _ _
@[simp] theorem reachBeat_mesh (s : State) (b : BitVec 48) : (s.reachBeat b).mesh = s.mesh := advance_mesh _ _
@[simp] theorem reachBeat_cinch (s : State) (b : BitVec 48) : (s.reachBeat b).cinch = s.cinch := advance_cinch _ _
@[simp] theorem reachBeat_wakes (s : State) (b : BitVec 48) : (s.reachBeat b).wakes = s.wakes := advance_wakes _ _
@[simp] theorem reachBeat_harness (s : State) (b : BitVec 48) : (s.reachBeat b).harness = s.harness := advance_harness _ _
@[simp] theorem reachBeat_ready (s : State) (b : BitVec 48) : (s.reachBeat b).ready = s.ready := advance_ready _ _
@[simp] theorem reachBeat_spares (s : State) (b : BitVec 48) : (s.reachBeat b).spares = s.spares := advance_spares _ _
@[simp] theorem reachBeat_tests (s : State) (b : BitVec 48) : (s.reachBeat b).tests = s.tests := advance_tests _ _

/-- The clock after `d` cycles. -/
@[simp] theorem advance_clock (s : State) (d : Nat) : (s.advance d).clock = s.clock + d := rfl

/-- The machine-time counter after `d` cycles (R5, R56). -/
@[simp] theorem advance_counter (s : State) (d : Nat) : (s.advance d).mt.counter = BitVec.ofNat 64 (s.now + d) := rfl

/-- Time never runs backwards: a cycle that has passed is not waited for. -/
@[simp] theorem reachClock_clock (s : State) (c : Nat) : (s.reachClock c).clock = max s.clock c := by
  simp only [reachClock, advance_clock]
  omega

/-- The parts of machine time that do not count. -/
theorem passBeats_mt (n : Nat) (s : State) : ∃ c, (passBeats n s).mt = { s.mt with counter := c } := by
  induction n generalizing s with
  | zero => exact ⟨_, rfl⟩
  | succ n ih =>
    obtain ⟨c, h⟩ := ih (s.endBeat.setTime (s.clock + ((s.now / 4096 + 1) * 4096 - s.now)) ((s.now / 4096 + 1) * 4096))
    exact ⟨c, h⟩

/-- Letting time pass leaves machine time's mode and its last frame as they are. -/
theorem advance_mt (s : State) (d : Nat) : (s.advance d).mt = { s.mt with counter := BitVec.ofNat 64 (s.now + d) } := by
  obtain ⟨c, h⟩ := passBeats_mt ((s.now + d) / 4096 - s.now / 4096) s
  simp [advance, setTime, h]

end Sys2Proof.Machine.State
end

