-- ==== Sys2Proof/WellFormed.lean ====
section
/-! DEFINITION. Well-formed commands: the bounds of operands that their types do not give. -/
namespace Sys2Proof

/-- A packet of the type `op` whose data, mask and lengths are of the shapes of R315 to R318; on the control channel with the class of
its type (R313). -/
def Packet.wf (op : Nat) (p : Packet) : Bool :=
  p.opcode.toNat == op && decide (p.data.length ≤ 64) && (p.mask.isNone || decide (p.data.length ≤ 16))
    && (decide (op < 0x30) || p.prio == decide (0x33 ≤ op))

/-- Well-formed commands. -/
def Instr.wf : Instr → Bool
  | .registerWrite _ addr _ => addr.toNat % 4 == 0
  | .badAccess _ _ size _ => decide (1 ≤ size)
  | .remoteWrite p => p.wf 2
  | .remoteRead p => p.wf 1
  | .ringReserve p => p.wf 0x10
  | .ringPlace p => p.wf 0x11
  | .ringRetry p => p.wf 0x12
  | .read p => p.wf 1
  | .write p => p.wf 2
  | .readData p => p.wf 3
  | .writeAck p => p.wf 4
  | .error p => p.wf 5
  | .stitch _ p => p.wf 0x20
  | .stitchCombine p => p.wf 0x20
  | .stitchAck p => p.wf 0x21
  | .regRead p => p.wf 0x30
  | .regWrite p => p.wf 0x31
  | .cinchAdd p => p.wf 0x38
  | .cinchSet p => p.wf 0x39
  | .cinchRead p => p.wf 0x3A
  | .cinchWatch p => p.wf 0x3B
  | .cinchCancel p => p.wf 0x3C
  | .cinchArrive p => p.wf 0x3D
  | .cinchResp p => p.wf 0x3E
  | .cinchWake p => p.wf 0x3F
  | .barrierRelease p => p.wf 0x3F
  | .cxlMemRequest _ off data => off.toNat % 64 == 0 && (match data with | some d => d.length == 64 | none => true)
  | .forecastReceived body => body.length == 22
  | .loadDikCert _ cert => decide (1 ≤ cert.length)
  | _ => true

end Sys2Proof
end

