-- ==== Sys2Proof/Tests/Slice0.lean ====
section
/-! SUPPORT. Tests: ill-formed commands refused, values that the rules give, and, for each statement of Obligations.lean with premises,
a concrete state and operands that meet them, clause by clause. Expected values come from the rules, not from the model. -/

namespace Sys2Proof.Tests

set_option Elab.async false

open Sys2Proof Sys2Proof.Machine

/-! ### Ill-formed commands -/

def packetOf (op : Nat) : Packet := { opcode := BitVec.ofNat 8 op }

theorem test_wf_register_write : (Instr.registerWrite 18 2#28 0).wf = false ∧ (Instr.registerWrite 18 4#28 0).wf = true := by decide
theorem test_wf_bad_access : (Instr.badAccess 3 0#28 0 false).wf = false ∧ (Instr.badAccess 3 0#28 8 false).wf = true := by decide
theorem test_wf_opcode : (Instr.read (packetOf 2)).wf = false ∧ (Instr.read (packetOf 1)).wf = true := by decide
/-- R313: register packets are best effort, cinch packets and IRQ_LEVEL low latency. -/
theorem test_wf_class : (Instr.regRead { packetOf 0x30 with prio := true }).wf = false ∧ (Instr.regRead (packetOf 0x30)).wf = true
    ∧ (Instr.cinchAdd (packetOf 0x38)).wf = false ∧ (Instr.cinchAdd { packetOf 0x38 with prio := true }).wf = true := by decide
theorem test_wf_data : (Instr.write { packetOf 2 with data := List.replicate 65 0 }).wf = false
    ∧ (Instr.write { packetOf 2 with data := List.replicate 64 0 }).wf = true := by decide
theorem test_wf_mask : (Instr.write { packetOf 2 with mask := some 0, data := List.replicate 17 0 }).wf = false
    ∧ (Instr.write { packetOf 2 with mask := some 0, data := List.replicate 16 0 }).wf = true := by decide
theorem test_wf_cxl_offset : (Instr.cxlMemRequest 0 32#40 none).wf = false ∧ (Instr.cxlMemRequest 0 64#40 none).wf = true := by decide
theorem test_wf_cxl_data : (Instr.cxlMemRequest 0 0#40 (some [1])).wf = false := by decide
theorem test_wf_forecast : (Instr.forecastReceived (List.replicate 21 0)).wf = false
    ∧ (Instr.forecastReceived (List.replicate 22 0)).wf = true := by decide
theorem test_wf_certificate : (Instr.loadDikCert 0 []).wf = false := by decide

/-! ### Numbers (spec/05): values that the rules give -/

/-- R116: 7 rounds to 8, which saturates to 6 (0x7). -/
theorem test_convert_seven_to_e2m1 : ((convertElem .bf16 .e2m1 0 false 0 0x40E0).code, (convertElem .bf16 .e2m1 0 false 0 0x40E0).census)
    = (7, some .saturation) := by decide +kernel
/-- R117: 20 rounds to 16 (0x7) in E3M0 and does not saturate. -/
theorem test_convert_twenty_to_e3m0 : ((convertElem .bf16 .e3m0 0 false 0 0x41A0).code, (convertElem .bf16 .e3m0 0 false 0 0x41A0).census)
    = (7, none) := by decide +kernel
/-- R128 step 6: 464 ties to 448 in E4M3; 480 saturates, or is NaN under SAT_MODE 1. -/
theorem test_convert_to_e4m3 : (convertElem .bf16 .e4m3 0 false 0 0x43E8).code = 0x7E ∧ (convertElem .bf16 .e4m3 0 false 0 0x43F0).code = 0x7E
    ∧ (convertElem .bf16 .e4m3 0 true 0 0xC3F0).code = 0xFF := by decide +kernel
/-- R128 steps 3 and 4: infinities and NaN into formats without them. -/
theorem test_convert_specials : (convertElem .bf16 .int8 0 true 0 0xFF80).code = 0x80 ∧ (convertElem .bf16 .int8 0 true 0 0x7FC0).census = some .nan
    ∧ (convertElem .bf16 .e5m2 0 true 0 0x7F80).code = 0x7C ∧ (convertElem .bf16 .e5m2 0 false 0 0x7F80).code = 0x7B := by decide +kernel
/-- R128 step 1: a void is zero and counts as void. -/
theorem test_convert_void : ((convertElem .t2 .bf16 0 false 0 2).code, (convertElem .t2 .bf16 0 false 0 2).census) = (0, some .void) := by
  decide +kernel
/-- R129 mode 1: 1.25 in E2M1 lies half of the way from 1 to 1.5: up under a word below 2^23. -/
theorem test_convert_stochastic : (convertElem .bf16 .e2m1 1 false (2 ^ 23 - 1) 0x3FA0).code = 3
    ∧ (convertElem .bf16 .e2m1 1 false (2 ^ 23) 0x3FA0).code = 2 := by decide +kernel
/-- R135: 7 written as 6 leaves 1, in E5M2 0x3C. -/
theorem test_residual_of_seven : residual false (decodeVal .bf16 0x40E0) (decodeVal .e2m1 7) = 0x3C := by decide +kernel
/-- R124: the sum past 2^31 - 1 wraps or saturates. -/
theorem test_dot_integer : (dot 5 0 0 1 1 0x7FFFFFFF false).acc = 0x80000000 ∧ (dot 5 0 0 1 1 0x7FFFFFFF true).acc = 0x7FFFFFFF
    ∧ (dot 5 0 0 1 1 0x7FFFFFFF true).overInt = true ∧ (dot 5 0 1 0xFF 0xFF 0 false).acc = 0xFFFFFF01 := by decide +kernel
/-- R123: zero times infinity is NaN, a void too; an infinity alone stands. E5M2 1.0 is 0x3C. -/
theorem test_dot_specials : (dot 0 1 1 0x7C 0 0 false).acc = 0x7FC00000 ∧ (dot 3 0 1 2 0x7C 0 false).acc = 0x7FC00000
    ∧ (dot 3 0 1 2 0x7C 0 false).voids = true ∧ (dot 0 1 1 0x3C 0x3C 0xFF800000 false).acc = 0xFF800000 := by decide +kernel
/-- R122: 1 × 1 summed 32 times onto 0.5 is 32.5. E4M3 1.0 is 0x38. -/
theorem test_dot_exact : (dot 0 0 0 (packElems .e4m3 (List.replicate 32 0x38)) (packElems .e4m3 (List.replicate 32 0x38)) 0x3F000000 false).acc
    = 0x42020000 := by decide +kernel
/-- R127: MAX orders -0 below +0 and NaN wins; a subnormal reads as zero (R120). -/
theorem test_lane_engine : leLane .fp32 5 0x80000000 0 0 = 0 ∧ leLane .fp32 6 0 0x80000000 0 = 0x80000000
    ∧ leLane .fp32 5 0x7F800001 0x3F800000 0 = 0x7FC00000 ∧ leLane .fp32 7 0x80000001 0 0 = 0x80000000
    ∧ leLane .fp32 1 0x3F800000 0x40000000 0x40400000 = 0x40A00000 := by decide +kernel

/-! ### Beats, cinches, ramps, frames -/

/-- R56: of beats 2^48 - 1 and 3 the later is 3. -/
theorem test_later_beat_wraps : laterBeat (-1) 3 = 3#48 ∧ laterBeat 3 (-1) = 3#48 := by decide
/-- R338: a value passes a threshold across the wrap of 64 bits. -/
theorem test_condition_wraps : condHolds 0 5 (-3) = true ∧ condHolds 3 (-3) 5 = true ∧ condHolds 0 (-3) 5 = false := by decide
/-- R348: the arrival that leaves 91 with 7 parties is of generation 13, and so is the one that leaves 85. -/
theorem test_generation : generation 91 7 = 13 ∧ generation 85 7 = 13 ∧ generation 84 7 = 12 := by decide
/-- R423: a ramp to 300 W steps by 42 64ths, so its second beat has pace 64; up to 200 W there is none. -/
theorem test_ramp_end : rampEndOf 300 1000 = 1001#48 ∧ rampEndOf 200 1000 = 1000#48 := by decide +kernel
/-- The check value of CRC-32: the bytes '1' to '9' give 0xCBF43926 (log 22). -/
theorem test_crc32 : crc32 [0x31, 0x32, 0x33, 0x34, 0x35, 0x36, 0x37, 0x38, 0x39] = 0xCBF43926 := by decide +kernel
/-- R113: 4-bit element 1 is bits 7 to 4. -/
theorem test_packing : unpackElems .e2m1 3 0xABC = [0xC, 0xB, 0xA] ∧ packElems .t2 [1, 3, 2] = 0x2D := by decide

/-! ### Premises of the statements are met

`B` holds the states that the rest start from: a released module, and one with a task that runs on clusters 0, 1 and 8. -/

namespace B
def released : State := { State.reset with boot := { State.reset.boot with phase := .released, perst := false, linkUp := true, configReady := true }, mt := { State.reset.mt with counter := 12345678, mode := .synced, unsync := false, present := true, localRef := false }, clock := 345, beats := 17 }
def task : Task := { ctx := 5, seq := 7, lc := true, peak := 10, mean := 5, notBefore := 0, serve := false, serveArg := 0, table := 0, phase := .running, started := true, startBeats := 3, limit := 1000, start := 3000 }
def region : Region := { state := .running, owner := 5, clusters := [0, 1, 8], task := some task }
def slotw : BitVec 512 := 1
def core : CoreState := { store := [(3, { bits := 77 })], acc := [(1, { bits := 5 })], queues := [(0, [⟨{ payload := 9 }, 12, 0⟩])], stalls := [(0, { count := 3 })], parityErrors := [4] }
def cluster : ClusterState := { cores := [(5, core), (33, core)], rows := [(7, { data := 12345, poison := 2 })], arrivals := [(2, 9)], handles := [(1, { base := 0x80000000#32 + 64 }), (2, { base := 0x80000000#32 })], power := .run }
def ctx : Context := { sqHead := 2, cqTail := 1, seq := 9, inProgress := [{ seq := 7, desc := 0 }], waiting := [1] }
def page : Page := { enable := 6, latch := 12, level := 4, counters := [(0, 3), (5, 7)], regs := [(0x40, 5)] }
def busy : State := { released with
  pages := [(0x10, page), (pgMtime, { page with regs := [] }), (pgIrqc, { counters := [(0, 2)] }), (pgClCtrl 0, page), (pgClCtrl 1, page)]
  clusters := [(0, cluster), (1, cluster), (8, cluster)], regions := [(3, region)]
  host := { State.reset.host with contexts := [(5, ctx)], bytes := [(4096, 7)] }
  mem := { bytes := [(100, 1), (2000, 3)], granules := [(0, 255#8)] }
  mesh := { routers := [(0, { held := [{ packet := {}, input := 4 }] })] }
  freeCount := 11 }
/-- The state that a command gives. -/
def result (c : Instr) (s : State) : State :=
  match exec c s with
  | .next t => t
  | _ => s

end B
open B

namespace T01

def z1 : State := { busy with pending := [.windowEnd, .source 0 0] }
def pr := { busy with custody := { strap := true } }
def cdp := BitVec.ofNat 16 (pgCd 0)

theorem test_premises_step_runs_front_command :
    (z1.pending = [Instr.windowEnd, Instr.source 0 0]) ∧
    (busy.pending = []) := by
  refine ⟨?_, ?_⟩ <;> decide +kernel

theorem test_premises_page_registers_change :
    ((65556#28).toNat = 4096 * 16 + 20 ∧ busy.eventOpen 3 16 = true) ∧
    (busy.pageOpen 3 (16#16).toNat = true) ∧
    (busy.answers 3 (16#16).toNat = true) ∧
    (busy.eventOpen 3 (16#16).toNat = true) ∧
    (busy.eventOpen 3 (16#16).toNat = true ∧
        let g' := (busy.settledFor (16#16).toNat).page (16#16).toNat;
        g'.errCycle ≠ busy.clock + 1) ∧
    ((busy.report 16 1 3 4).eventOpen 3 (16#16).toNat = true ∧
        let g' := ((busy.report 16 1 3 4).settledFor (16#16).toNat).page (16#16).toNat;
        g'.errCycle = (busy.report 16 1 3 4).clock + 1) ∧
    (busy.pageOpen 3 (pgTelemetry ↑0 ↑5) = true) ∧
    ((pageInfo (BitVec.ofNat 16 pgMgmt).toNat).isSome = true ∧
        busy.pageOpen 3 (BitVec.ofNat 16 pgMgmt).toNat = false ∧
          busy.eventOpen 3 (BitVec.ofNat 16 pgMgmt).toNat = false ∧ busy.answers 3 (BitVec.ofNat 16 pgMgmt).toNat = false) := by
  refine ⟨?_, ?_, ?_, ?_, ?_, ?_, ?_, ?_⟩ <;> decide +kernel

theorem test_premises_bad_accesses_and_crossings_are_recorded :
    (accessOk (67585#28).toNat 3 = false) ∧
    ((67624#28).toNat = 4096 * 16 + 2048 + 8 * 5 ∧ 5 < 256 ∧ busy.answers 18 16 = true) ∧
    ((pageInfo (16#16).toNat).isSome = true ∧
        (16#16).toNat < 16384 ∧ (16#16).toNat ≠ pgMgmt ∧ ∀ (p : Packet), none = some p → busy.deliveryOf p = none) := by
  refine ⟨?_, ?_, ?_⟩ <;> decide +kernel

theorem test_premises_custody_guards_registers :
    (pageBlock cdp.toNat = some Block.cd ∧
        (busy.page cdp.toNat).inReset = false ∧
          BitVec.ofNat 16 (1#32).toNat &&& 1#16 ≠ (busy.page cdp.toNat).lock ∧ busy.custody.present = false) ∧
    (pageBlock cdp.toNat = some Block.cd ∧
        (pr.page cdp.toNat).inReset = false ∧
          BitVec.ofNat 16 (1#32).toNat &&& 1#16 ≠ (pr.page cdp.toNat).lock ∧ pr.custody.present = true) ∧
    ((BitVec.ofNat 28 (4096 * pgCd 2 + 276)).toNat = 4096 * pgCd ↑2 + 256 + 4 * ↑5 ∧
        pr.answers 18 (pgCd ↑2) = true ∧
          pr.custody.present = true ∧
            (pr.page (pgCd ↑2)).lock.getLsbD 0 = false ∧ field (2147483903#32).toNat 11 0 < 4000 ∧ pr.probes.round ≤ pr.roundStart) := by
  refine ⟨?_, ?_, ?_⟩ <;> decide +kernel

end T01

namespace T02

def irqS : State := ((busy.modPage 0x10 fun g => { g with control := BitVec.ofNat 32 (5 * 2^28 + 2^11 + 2^27) }).setReg pgIrqc (tgtOffset 2) 8).setReg pgIrqc (tgtOffset 18) 8
def irqT : State := irqS.modSource 0x10 fun x => { x with rot := 3 }
def irqO : State := irqT.offerTo 0x10 2
def z1 := (irqO.modPage 0x10 fun g => {g with latch := 0, level := 0})
def irqC : State := irqO.claimFor 2 0x10
def z2 := (irqC.modSource 16 fun x => {x with settling := some 200})

/-- Only the source that holds an offer is offered. -/
theorem not_offered (s : State) (n t : Nat) (h : (s.source n).offer = none) : s.offeredTo n t = false := by
  simp [State.offeredTo, h]

theorem source_irqO (n : Nat) (h : n ≠ 16) : (irqO.source n).offer = none := by
  obtain ⟨x, e⟩ : ∃ x, irqO.irq.sources = [(16, x)] := ⟨irqO.source 16, by decide +kernel⟩
  simp [State.source, SMap.getD, SMap.get?, e, Ne.symm h]

theorem only_16 (n : Nat) (h : irqO.offeredTo n 2 = true) : n = 16 ∨ irqO.claimsBefore 16 n = true := by
  by_cases e : n = 16
  · exact .inl e
  · rw [not_offered _ _ _ (source_irqO n e)] at h
    cases h

theorem none_offered (n : Nat) : irqT.offeredTo n 2 = false := by
  apply not_offered
  obtain ⟨x, e⟩ : ∃ x, irqT.irq.sources = [(16, x)] := ⟨irqT.source 16, by decide +kernel⟩
  by_cases h : n = 16
  · subst h
    decide +kernel
  · simp [State.source, SMap.getD, SMap.get?, e, Ne.symm h]

theorem test_premises_offers_claims_and_completes :
    (irqS.isPending (16#16).toNat = true ∧
        (irqS.source (16#16).toNat).offer = none ∧
          2 < 19 ∧
            irqS.eligible (16#16).toNat (((irqS.source (16#16).toNat).rot + 1 + 2) % 19) = true ∧
              ∀ (i : Nat), i < 2 → irqS.eligible (16#16).toNat (((irqS.source (16#16).toNat).rot + 1 + i) % 19) = false) ∧
    (busy.isPending (16#16).toNat = true ∧
        (busy.source (16#16).toNat).offer = none ∧ ∀ (tgt : Nat), tgt < 19 → busy.eligible (16#16).toNat tgt = false) ∧
    (z1.isPending (16#16).toNat = false ∧ z1.summaryOf (16#16).toNat = false) ∧
    ((irqO.source (16#16).toNat).offer = some (2, 345) ∧ 2 < 19 ∧ irqO.isPending (16#16).toNat = true) ∧
    ((irqO.page pgIrqc).inReset = false ∧
        irqO.offeredTo 16 ↑2 = true ∧ (∀ (m : Nat), irqO.offeredTo m ↑2 = true → m = 16 ∨ irqO.claimsBefore 16 m = true) ∧ ↑2 = ↑2) ∧
    ((irqO.page pgIrqc).inReset = false ∧
        irqO.offeredTo 16 ↑2 = true ∧ (∀ (m : Nat), irqO.offeredTo m ↑2 = true → m = 16 ∨ irqO.claimsBefore 16 m = true) ∧ ↑18 ≠ ↑2) ∧
    (∀ (n : Nat), irqT.offeredTo n ↑2 = false) ∧
    ((irqC.page pgIrqc).inReset = false ∧ SMap.getD irqC.irq.claimed ↑2 [] = [(16#16).toNat]) ∧
    ((irqC.page pgIrqc).inReset = false ∧ (SMap.getD irqC.irq.claimed ↑2 []).head? ≠ some (17#16).toNat) ∧
    ((z2.source (16#16).toNat).settling = some 200) := by
  refine ⟨?_, ?_, ?_, ?_, ⟨?_, ?_, only_16, ?_⟩, ⟨?_, ?_, only_16, ?_⟩, none_offered, ?_, ?_, ?_⟩ <;> decide +kernel

end T02

namespace T02b

def busyT := { busy with mt := { busy.mt with counter := 4096*65536*3 + 77 } }
def fr (b : BitVec 48) (m : Option (BitVec 48)) : State := ({ busyT with mt := { busyT.mt with frame := some b, mismatch := m } }).setReg pgMtime 0x40 1
def z2 : State := {busyT with mt := {busyT.mt with loadDue := some 196608}}
def pc := BitVec.ofNat 16 (pgClCtrl 0)
def w3 (a : Nat) : W32 := BitVec.ofNat 32 a
def win (beat arg left : Nat) : PostWindow := { w0 := BitVec.ofNat 32 beat, w1 := BitVec.ofNat 32 (beat / 2^32 + (arg % 65536) * 65536), w2 := BitVec.ofNat 32 (arg / 65536 + left * 65536) }
def posted (n : Nat) (req : Nat) (beat arg left : Nat) : State := busy.modPage n fun g => { g with windows := SMap.put g.windows req (win beat arg left) }
def fold3 := w3 (1 * 2^24 + 7)
def fold3l := w3 (1 * 2^24 + 2^23 + 7)
def full := { (posted (pgClCtrl 0) 3 3016 2 0) with cals := [(pgClCtrl 0, (List.range 64).map fun i => ⟨1, 0, 0, 0, BitVec.ofNat 48 (4000+i)⟩)] }
def canc := w3 (0xFF * 2^24)
def cs := { (posted (pgClCtrl 0) 3 4002 1 0) with cals := full.cals }
def z4 : State := { (posted (pgClCtrl 0) 3 3002 1 0) with cals := full.cals }

theorem test_premises_frames_and_epochs_are_tested :
    (frameValid (5#72).toNat = false) ∧
    (busyT.mt.heard = false ∧ busyT.mt.frame = none) ∧
    ((fr busyT.mt.nextEpoch (some 3#48)).mt.frame = some busyT.mt.nextEpoch ∧
        (fr busyT.mt.nextEpoch (some 3#48)).mt.mode = TimeMode.synced ∧
          (fr busyT.mt.nextEpoch (some 3#48)).mt.unsync = false ∧
            bitAt (((fr busyT.mt.nextEpoch (some 3#48)).reachBeat (fr busyT.mt.nextEpoch (some 3#48)).mt.nextEpoch).regOf pgMtime 64)
                  0 =
                true ∧
              busyT.mt.nextEpoch = (fr busyT.mt.nextEpoch (some 3#48)).mt.nextEpoch) ∧
    ((fr (busyT.mt.nextEpoch + 9#48) (some 3#48)).mt.frame = some (busyT.mt.nextEpoch + 9#48) ∧
        (fr (busyT.mt.nextEpoch + 9#48) (some 3#48)).mt.mode = TimeMode.synced ∧
          (fr (busyT.mt.nextEpoch + 9#48) (some 3#48)).mt.unsync = false ∧
            bitAt
                  (((fr (busyT.mt.nextEpoch + 9#48) (some 3#48)).reachBeat
                        (fr (busyT.mt.nextEpoch + 9#48) (some 3#48)).mt.nextEpoch).regOf
                    pgMtime 64)
                  0 =
                true ∧
              busyT.mt.nextEpoch + 9#48 ≠ (fr (busyT.mt.nextEpoch + 9#48) (some 3#48)).mt.nextEpoch ∧
                (fr (busyT.mt.nextEpoch + 9#48) (some 3#48)).mt.mismatch ≠
                  some (busyT.mt.nextEpoch + 9#48 - (fr (busyT.mt.nextEpoch + 9#48) (some 3#48)).mt.nextEpoch)) ∧
    ((fr (busyT.mt.nextEpoch + 9#48) (some 9#48)).mt.frame = some (busyT.mt.nextEpoch + 9#48) ∧
        (fr (busyT.mt.nextEpoch + 9#48) (some 9#48)).mt.mode = TimeMode.synced ∧
          (fr (busyT.mt.nextEpoch + 9#48) (some 9#48)).mt.unsync = false ∧
            bitAt
                  (((fr (busyT.mt.nextEpoch + 9#48) (some 9#48)).reachBeat
                        (fr (busyT.mt.nextEpoch + 9#48) (some 9#48)).mt.nextEpoch).regOf
                    pgMtime 64)
                  0 =
                true ∧
              busyT.mt.nextEpoch + 9#48 ≠ (fr (busyT.mt.nextEpoch + 9#48) (some 9#48)).mt.nextEpoch ∧
                (fr (busyT.mt.nextEpoch + 9#48) (some 9#48)).mt.mismatch =
                  some (busyT.mt.nextEpoch + 9#48 - (fr (busyT.mt.nextEpoch + 9#48) (some 9#48)).mt.nextEpoch)) ∧
    (frameValid (1697100454785573748896#72).toNat = true) := by
  refine ⟨?_, ?_, ?_, ?_, ?_, ?_⟩ <;> decide +kernel

theorem test_premises_reference_is_lost_and_returns :
    (busyT.mt.present = true) ∧
    ((busyT.page pgMtime).inReset = false ∧ busyT.mt.present = true ∧ busyT.mt.mode = TimeMode.synced) ∧
    (z2.mt.loadDue = some 196608#48 ∧ z2.mt.present = true ∧ (196608#48).toNat * 4096 ≤ (z2.reachClock z2.mt.loadAt).now) := by
  refine ⟨?_, ?_, ?_⟩ <;> decide +kernel

theorem test_premises_posts_and_cancels_are_judged :
    (pageBlock pc.toNat = some Block.clCtrl ∧
        ((posted (pgClCtrl 0) 3 3016 2 0).page pc.toNat).inReset = false ∧
          postedOf (win 3016 2 0) fold3 =
              postedOf
                (SMap.getD ((posted (pgClCtrl 0) 3 3016 2 0).page pc.toNat).windows ↑3
                  { w0 := 0#32, w1 := 0#32, w2 := 0#32 : PostWindow })
                fold3 ∧
            (postedOf (win 3016 2 0) fold3).action ≠ 255 ∧
              let late' :=
                ¬(2 ≤ ((postedOf (win 3016 2 0) fold3).beat - (posted (pgClCtrl 0) 3 3016 2 0).beat).toNat ∧
                    ((postedOf (win 3016 2 0) fold3).beat - (posted (pgClCtrl 0) 3 3016 2 0).beat).toNat < 2 ^ 47);
              let held' := (posted (pgClCtrl 0) 3 3016 2 0).pruned pc.toNat;
              ↑3 < 18 ∧
                actionFits Block.clCtrl (postedOf (win 3016 2 0) fold3).action = true ∧
                  actionMgmt (postedOf (win 3016 2 0) fold3).action = isMgmtReq 3 ∧
                    (postedOf (win 3016 2 0) fold3).zero = 0 ∧
                      argOk (postedOf (win 3016 2 0) fold3).action (BitVec.toNat (postedOf (win 3016 2 0) fold3).arg) = true ∧
                        ¬late' ∧ held'.length < 64) ∧
    (pageBlock pc.toNat = some Block.clCtrl ∧
        ((posted (pgClCtrl 0) 3 3015 2 0).page pc.toNat).inReset = false ∧
          postedOf (win 3015 2 0) fold3 =
              postedOf
                (SMap.getD ((posted (pgClCtrl 0) 3 3015 2 0).page pc.toNat).windows ↑3
                  { w0 := 0#32, w1 := 0#32, w2 := 0#32 : PostWindow })
                fold3 ∧
            (postedOf (win 3015 2 0) fold3).action ≠ 255 ∧
              let late' :=
                ¬(2 ≤ ((postedOf (win 3015 2 0) fold3).beat - (posted (pgClCtrl 0) 3 3015 2 0).beat).toNat ∧
                    ((postedOf (win 3015 2 0) fold3).beat - (posted (pgClCtrl 0) 3 3015 2 0).beat).toNat < 2 ^ 47);
              ↑3 < 18 ∧
                actionFits Block.clCtrl (postedOf (win 3015 2 0) fold3).action = true ∧
                  actionMgmt (postedOf (win 3015 2 0) fold3).action = isMgmtReq 3 ∧
                    (postedOf (win 3015 2 0) fold3).zero = 0 ∧
                      argOk (postedOf (win 3015 2 0) fold3).action (BitVec.toNat (postedOf (win 3015 2 0) fold3).arg) = true ∧
                        late' ∧ (postedOf (win 3015 2 0) fold3).lateOk = false) ∧
    (pageBlock pc.toNat = some Block.clCtrl ∧
        ((posted (pgClCtrl 0) 3 3015 2 0).page pc.toNat).inReset = false ∧
          postedOf (win 3015 2 0) fold3l =
              postedOf
                (SMap.getD ((posted (pgClCtrl 0) 3 3015 2 0).page pc.toNat).windows ↑3
                  { w0 := 0#32, w1 := 0#32, w2 := 0#32 : PostWindow })
                fold3l ∧
            (postedOf (win 3015 2 0) fold3l).action ≠ 255 ∧
              let late' :=
                ¬(2 ≤ ((postedOf (win 3015 2 0) fold3l).beat - (posted (pgClCtrl 0) 3 3015 2 0).beat).toNat ∧
                    ((postedOf (win 3015 2 0) fold3l).beat - (posted (pgClCtrl 0) 3 3015 2 0).beat).toNat < 2 ^ 47);
              let held' := (posted (pgClCtrl 0) 3 3015 2 0).pruned pc.toNat;
              ↑3 < 18 ∧
                actionFits Block.clCtrl (postedOf (win 3015 2 0) fold3l).action = true ∧
                  actionMgmt (postedOf (win 3015 2 0) fold3l).action = isMgmtReq 3 ∧
                    (postedOf (win 3015 2 0) fold3l).zero = 0 ∧
                      argOk (postedOf (win 3015 2 0) fold3l).action (BitVec.toNat (postedOf (win 3015 2 0) fold3l).arg) = true ∧
                        late' ∧ (postedOf (win 3015 2 0) fold3l).lateOk = true ∧ held'.length < 64) ∧
    (pageBlock pc.toNat = some Block.clCtrl ∧
        (full.page pc.toNat).inReset = false ∧
          postedOf (win 3016 2 0) fold3 =
              postedOf (SMap.getD (full.page pc.toNat).windows ↑3 { w0 := 0#32, w1 := 0#32, w2 := 0#32 : PostWindow }) fold3 ∧
            (postedOf (win 3016 2 0) fold3).action ≠ 255 ∧
              let late' :=
                ¬(2 ≤ ((postedOf (win 3016 2 0) fold3).beat - full.beat).toNat ∧
                    ((postedOf (win 3016 2 0) fold3).beat - full.beat).toNat < 2 ^ 47);
              let held' := full.pruned pc.toNat;
              ↑3 < 18 ∧
                actionFits Block.clCtrl (postedOf (win 3016 2 0) fold3).action = true ∧
                  actionMgmt (postedOf (win 3016 2 0) fold3).action = isMgmtReq 3 ∧
                    (postedOf (win 3016 2 0) fold3).zero = 0 ∧
                      argOk (postedOf (win 3016 2 0) fold3).action (BitVec.toNat (postedOf (win 3016 2 0) fold3).arg) = true ∧
                        ¬late' ∧ 64 ≤ held'.length) ∧
    (pageBlock pc.toNat = some Block.clCtrl ∧
        ((posted (pgClCtrl 0) 18 3016 2 0).page pc.toNat).inReset = false ∧
          postedOf (win 3016 2 0) fold3 =
              postedOf
                (SMap.getD ((posted (pgClCtrl 0) 18 3016 2 0).page pc.toNat).windows ↑18
                  { w0 := 0#32, w1 := 0#32, w2 := 0#32 : PostWindow })
                fold3 ∧
            (postedOf (win 3016 2 0) fold3).action ≠ 255 ∧ ↑18 = 18) ∧
    (cs.post? 3 pc.toNat canc = some (postedOf (win 4002 1 0) canc, 0) ∧ (postedOf (win 4002 1 0) canc).action = 255) ∧
    (z4.post? 3 pc.toNat canc = some (postedOf (win 3002 1 0) canc, 2) ∧ (postedOf (win 3002 1 0) canc).action = 255 ∧ 2 ≠ 0 ∧ 2 ≠ 3) := by
  refine ⟨?_, ?_, ?_, ?_, ?_, ?_, ?_⟩ <;> decide +kernel

end T02b

namespace T03

def ce (a arg p l b : Nat) : CalEntry := ⟨a, BitVec.ofNat 32 arg, p, l, BitVec.ofNat 48 b⟩
def withCal (s : State) (p : Nat) (es : List CalEntry) : State := { s with cals := [(p, es), (pgClCtrl 2, [ce 1 3 0 0 9000])] }
def P0 := pgClCtrl 0
def took (s : State) (p a : Nat) : State := match s.takeEntry p a with | some (_, u) => u | none => s
def c1 := withCal busy P0 [ce 1 3 5 2 3020, ce 1 2 0 0 3018, ce 4 9 0 0 3030]
def c3 := withCal busy P0 [ce 1 0 0 2 3010]
def arm (f : Nat) (fr : Bool) := busy.modCl 0 fun c => { c with armed := [⟨3016, f, 4, 2⟩, ⟨3017, 1, 0, 0⟩], frozen := fr }
def w1 : BarrierWaiter := ⟨5, 9, 0, 0, false, some 3016, true⟩
def w2 : BarrierWaiter := ⟨5, 9, 0, 3, false, none, false⟩
def w3' : BarrierWaiter := ⟨6, 9, 0, 3, false, none, false⟩
def bar (bs : List BarrierWaiter) := busy.modCl 0 fun c => { c with barriers := bs, cores := [] }
def w1' := { w1 with missRelease := false }
def b4 (r : Nat) := withCal (bar [w3', { w1 with deadline := none }, w2]) P0 [ce 4 (5 + 9 * 4096 + r * 2^28) 0 0 3016]
def pw (p : DomainState) (w a : Nat) := withCal ((busy.modCl 0 fun c => { c with power := p })) P0 [ce a w 0 0 3016]
def z2 := (busy.modCl 0 fun c => { c with power := .off, raiseDue := some 3015 })
def free (s : State) : State := { s with regions := [] }
def br (a arg : Nat) := withCal busy pgBridle [ce a arg 0 0 3016]
def cmd (d : Nat) (cfg : Nat) : State := ({ busy with host := { busy.host with contexts := [(5, { B.ctx with inProgress := [{ seq := 7, desc := BitVec.ofNat 1024 d }] })] } }).setReg (pgContext 5) 0x40 cfg
def bud := 14 + 2^64 * 5000 + 2^80 * 700
def ust (s : State) (x seq op : Nat) : State := match s.startCmd x (BitVec.ofNat 32 seq) op with | some (_, u) => u | none => s
def z3 : State := {busy with boot := {busy.boot with mgmt0Halted := true}}
def z5 : State := {busy with bridle := {busy.bridle with limiting := true}}
def z8 : State := {busy with bridle := {busy.bridle with tripped := [unitNumber (.compute 1)]}}
def z10 : State := {busy with bridle := {busy.bridle with lastHeartbeat := -5176}}
def z12 : State := {busy with bridle := {busy.bridle with stale := true}}

theorem test_premises_entries_run_in_order :
    ((c1.takeEntry P0 1).map (·.1) = some (ce 1 2 0 0 3018) ∧ ((ce 1 2 0 0 3018).beat - c1.beat).toNat < 2 ^ 47) := by
  decide +kernel

theorem test_premises_folds_switch :
    ((c1.takeEntry (pgClCtrl ↑0) 1).map (·.1) = some (ce 1 2 0 0 3018) ∧
        (let f' := BitVec.toNat (ce 1 2 0 0 3018).arg % 8;
          ((took c1 P0 1).cl ↑0).activeFold ≠ f') ∧
          ((took c1 P0 1).cl ↑0).frozen = false) ∧
    ((c3.takeEntry (pgClCtrl ↑0) 1).map (·.1) = some (ce 1 0 0 2 3010) ∧
        let f' := BitVec.toNat (ce 1 0 0 2 3010).arg % 8;
        ((took c3 P0 1).cl ↑0).activeFold = f') ∧
    (nextArmed (arm 5 false).beat ((arm 5 false).cl ↑0).armed =
          some (0, { beat := 3016#48, fold := 5, period := 4, left := 2 : ArmedSwitch }) ∧
        (arm 5 false).inOrder { beat := 3016#48, fold := 5, period := 4, left := 2 : ArmedSwitch }.beat armedRank = true ∧
          ((arm 5 false).cl ↑0).activeFold ≠ { beat := 3016#48, fold := 5, period := 4, left := 2 : ArmedSwitch }.fold ∧
            ((arm 5 false).cl ↑0).frozen = false) ∧
    (nextArmed (arm 5 true).beat ((arm 5 true).cl ↑0).armed =
          some (0, { beat := 3016#48, fold := 5, period := 4, left := 2 : ArmedSwitch }) ∧
        (arm 5 true).inOrder { beat := 3016#48, fold := 5, period := 4, left := 2 : ArmedSwitch }.beat armedRank = true ∧
          ((arm 5 true).cl ↑0).activeFold ≠ { beat := 3016#48, fold := 5, period := 4, left := 2 : ArmedSwitch }.fold ∧
            ((arm 5 true).cl ↑0).frozen = true) := by
  refine ⟨?_, ?_, ?_, ?_⟩ <;> decide +kernel

theorem test_premises_barrier_deadlines_miss :
    (firstDeadline (bar [w3', w1, w2]).beat ((bar [w3', w1, w2]).cl ↑0).barriers = some (w1, 3016#48) ∧
        (bar [w3', w1, w2]).cal (pgClCtrl ↑0) = [] ∧
          (bar [w3', w1, w2]).inOrder (3016#48) (actionRank 4) = true ∧
            (let u' := (bar [w3', w1, w2]).reachBeat 3016#48;
              let late' :=
                List.filter (fun x => x.vid == w1.vid && x.gen == w1.gen && !u'.releaseCame (↑0) x)
                  ((bar [w3', w1, w2]).cl ↑0).barriers;
              late' ≠ []) ∧
              w1.missRelease = true) ∧
    (firstDeadline (bar [w3', w1', w2]).beat ((bar [w3', w1', w2]).cl ↑0).barriers = some (w1', 3016#48) ∧
        (bar [w3', w1', w2]).cal (pgClCtrl ↑0) = [] ∧
          (bar [w3', w1', w2]).inOrder (3016#48) (actionRank 4) = true ∧
            (let u' := (bar [w3', w1', w2]).reachBeat 3016#48;
              let late' :=
                List.filter (fun x => x.vid == w1'.vid && x.gen == w1'.gen && !u'.releaseCame (↑0) x)
                  ((bar [w3', w1', w2]).cl ↑0).barriers;
              late' ≠ []) ∧
              w1'.missRelease = false) ∧
    ((∀ (b : BarrierWaiter), b ∈ ((b4 1).cl ↑0).barriers → b.deadline = none) ∧
        ((b4 1).takeEntry (pgClCtrl ↑0) 4).map (·.1) = some (ce 4 (5 + 9 * 4096 + 2 ^ 28) 0 0 3016) ∧
          bitAt (BitVec.toNat (ce 4 (5 + 9 * 4096 + 2 ^ 28) 0 0 3016).arg) 28 = true) ∧
    ((∀ (b : BarrierWaiter), b ∈ ((b4 0).cl ↑0).barriers → b.deadline = none) ∧
        ((b4 0).takeEntry (pgClCtrl ↑0) 4).map (·.1) = some (ce 4 (5 + 9 * 4096) 0 0 3016) ∧
          bitAt (BitVec.toNat (ce 4 (5 + 9 * 4096) 0 0 3016).arg) 28 = false) := by
  refine ⟨?_, ?_, ?_, ?_⟩ <;> decide +kernel

theorem test_premises_domains_rise_and_fall :
    (((pw DomainState.off 1 5).takeEntry (pgClCtrl ↑0) 5).map (·.1) = some (ce 5 1 0 0 3016) ∧
        ((took (pw DomainState.off 1 5) P0 5).cl ↑0).retired = false ∧
          ((took (pw DomainState.off 1 5) P0 5).cl ↑0).power = DomainState.off ∧
            (let want' := BitVec.toNat (ce 5 1 0 0 3016).arg % 4;
              want' ≠ 0) ∧
              ((took (pw DomainState.off 1 5) P0 5).cl ↑0).raiseDue = none) ∧
    (((pw DomainState.idle 2 5).takeEntry (pgClCtrl ↑0) 5).map (·.1) = some (ce 5 2 0 0 3016) ∧
        ((took (pw DomainState.idle 2 5) P0 5).cl ↑0).retired = false ∧
          ((took (pw DomainState.idle 2 5) P0 5).cl ↑0).power = DomainState.idle ∧
            let want' := BitVec.toNat (ce 5 2 0 0 3016).arg % 4;
            want' = 2) ∧
    (((pw DomainState.run 2 5).takeEntry (pgClCtrl ↑0) 5).map (·.1) = some (ce 5 2 0 0 3016) ∧
        ((took (pw DomainState.run 2 5) P0 5).cl ↑0).retired = false ∧
          ((took (pw DomainState.run 2 5) P0 5).cl ↑0).power = DomainState.run) ∧
    ((z2.cl ↑0).raiseDue = some 3015#48) ∧
    (((pw DomainState.run 1 6).takeEntry (pgClCtrl ↑0) 6).map (·.1) = some (ce 6 1 0 0 3016) ∧
        (let want' := BitVec.toNat (ce 6 1 0 0 3016).arg % 4;
          want' = 1) ∧
          (took (pw DomainState.run 1 6) P0 6).keepsPower ↑0 = true) ∧
    (((pw DomainState.run 0 6).takeEntry (pgClCtrl ↑0) 6).map (·.1) = some (ce 6 0 0 0 3016) ∧
        (let want' := BitVec.toNat (ce 6 0 0 0 3016).arg % 4;
          want' = 0) ∧
          (took (pw DomainState.run 0 6) P0 6).mayPowerOff ↑0 = false) ∧
    (((free (pw DomainState.run 1 6)).takeEntry (pgClCtrl ↑0) 6).map (·.1) = some (ce 6 1 0 0 3016) ∧
        (let want' := BitVec.toNat (ce 6 1 0 0 3016).arg % 4;
          want' = 1) ∧
          (took (free (pw DomainState.run 1 6)) P0 6).keepsPower ↑0 = false ∧
            ((took (free (pw DomainState.run 1 6)) P0 6).cl ↑0).power = DomainState.run) ∧
    (((free (pw DomainState.run 0 6)).takeEntry (pgClCtrl ↑0) 6).map (·.1) = some (ce 6 0 0 0 3016) ∧
        (let want' := BitVec.toNat (ce 6 0 0 0 3016).arg % 4;
          want' = 0) ∧
          (took (free (pw DomainState.run 0 6)) P0 6).mayPowerOff ↑0 = true) := by
  refine ⟨?_, ?_, ?_, ?_, ?_, ?_, ?_, ?_⟩ <;> decide +kernel

theorem test_premises_power_budgets_and_forecasts :
    (((br 16 (9000 * 65536 + 8000)).takeEntry pgBridle 16).map (·.1) = some (ce 16 (9000 * 65536 + 8000) 0 0 3016)) ∧
    (((br 17 (5000 * 65536 + 4000)).takeEntry pgBridle 17).map (·.1) = some (ce 17 (5000 * 65536 + 4000) 0 0 3016)) ∧
    (((br 18 5000).takeEntry pgBridle 18).map (·.1) = some (ce 18 5000 0 0 3016)) ∧
    ((cmd bud (3 * 2 ^ 30)).startCmd (↑5) (7#32) 14 = some (bud, ust (cmd bud (3 * 2 ^ 30)) 5 7 14) ∧
        bitAt ((cmd bud (3 * 2 ^ 30)).regOf (pgContext ↑5) 64) 30 = true) ∧
    ((cmd bud (2 ^ 31)).startCmd (↑5) (7#32) 14 = some (bud, ust (cmd bud (2 ^ 31)) 5 7 14) ∧
        bitAt ((cmd bud (2 ^ 31)).regOf (pgContext ↑5) 64) 30 = false) ∧
    (z3.boot.sorrelUp = false) ∧
    (busy.boot.sorrelUp = true) := by
  refine ⟨?_, ?_, ?_, ?_, ?_, ?_, ?_⟩ <;> decide +kernel

theorem test_premises_quiesce_stops_the_module :
    (busy.boot.phase ≠ BootPhase.off ∧ busy.boot.phase ≠ BootPhase.quiesced) ∧
    (busy.boot.phase ≠ BootPhase.off ∧ busy.boot.phase ≠ BootPhase.quiesced ∧ 99 < (thresholds (ThermalUnit.compute 0)).snd.snd) := by
  refine ⟨?_, ?_⟩ <;> decide +kernel

theorem test_premises_limiter_and_heat :
    (busy.bridle.limiting = false) ∧
    (z5.bridle.limiting = true) ∧
    ((thresholds (ThermalUnit.io 1)).fst ≤ 120) ∧
    (20 < (thresholds (ThermalUnit.io 1)).fst) ∧
    (z8.bridle.tripped.contains (unitNumber (ThermalUnit.compute 1)) = true) := by
  refine ⟨?_, ?_, ?_, ?_, ?_⟩ <;> decide +kernel

theorem test_premises_heartbeat_keeps_fresh :
    (z10.bridle.stale = false) ∧
    (isMgmtReq 16 = true ∧ z12.answers 16 pgBridle = true) ∧
    (isMgmtReq 15 = false) := by
  refine ⟨?_, ?_, ?_⟩ <;> decide +kernel

end T03

namespace T04

def live (s : State) : State := { s with ready := { s.ready with cd := [0,1,2,3,4,5,6,7], msd := [0,1,2,3,4,5,6,7], lpddr := true } }
def cmdAt (s : State) (d : Nat) : State := { s with host := { s.host with contexts := [(5, { B.ctx with inProgress := [{ seq := 7, desc := BitVec.ofNat 1024 d }, { seq := 8, desc := 9 }] })] } }
def ust (s : State) (x seq op : Nat) : State := match s.startCmd x (BitVec.ofNat 32 seq) op with | some (_, u) => u | none => s
def rsv (ks : List Nat) : Nat := 1 + (ks.map fun k => 2^(128+k)).sum
def s2 := cmdAt busy (rsv [20, 21])
def s3 := live s2
def s4 := s3.modCl 21 fun c => { c with power := .off }
def s5 := { s3 with regions := (List.range 128).map fun r => (r, { state := .loaded, owner := 2, clusters := [] }) }
def z1 : State := {s4 with host := {s4.host with reserving := [(5,7,some (-500))]}}
def rel (f r : Nat) : Nat := 2 + r * 2^32 + f * 2^64
def s6 := cmdAt busy (rel 0 3)
def s6' := cmdAt busy (rel 0 4)
def s7 := cmdAt {busy with regions := [(3, { B.region with state := .loaded, task := some { B.task with started := false, phase := .candidate, seq := 8 } })]} (rel 1 3)
def s8 := cmdAt {busy with regions := [(3, { B.region with state := .loaded, task := none, clearing := some (5, 7, 3013) })]} (rel 1 3)
def ld (r md cb : Nat) : Nat := 3 + r * 2^32 + 0x1000 * 2^64 + md * 2^112 + cb * 2^160
def rg (st : RegionState) (s : State) : State := {s with regions := [(3, { B.region with state := st, task := none}), (6, { B.region with clusters := [50] })]}
def s9 (d : Nat) (st : RegionState) := cmdAt (rg st busy) d
def s10 := { (s9 (ld 3 0 0) .loaded) with spares := { pending := [.cluster 1] } }
def L : Load := { ctx := 5, seq := 7, image := 0x1000, purge := false, drainBeats := 4, commitBeat := 0, accepted := 3013, before := .loaded }
def s11 (l : Load) := cmdAt { busy with regions := [(3, { B.region with state := .draining, task := none, load := some l})] } (ld 3 0 0)
def Ls := { L with started := true }
def s12 := (s11 Ls).modCore 0 33 fun c => { c with queues := [(2, [⟨{fold := 4}, 1, 0⟩])] }
def Lc := { Ls with closedAt := some 3013 }
def Lt := { Lc with staged := true }
def s14 := (s11 Lt).modCl 0 fun c => { c with loadPhase := 3 }
def Lw := { Lt with commit := some 3016 }
def s15 := (((s11 Lw).modCl 0 fun c => { c with loadPhase := 4, next := [(2+33, {data := 12345678901}), (3, {data := -1})], nextInitFold := 3, isClosed := true })).modCl 0 fun c => { c with cores := SMap.put c.cores 7 {slots := [(1, 5)]} }
def s16 := { s15 with cals := [(pgClCtrl 0, [⟨2, 0, 0, 0, 3016⟩]), (pgClCtrl 1, [⟨2, 0, 0, 0, 3016⟩]), (pgClCtrl 8, [⟨2, 0, 0, 0, 3016⟩])] }

theorem test_premises_reserves_and_releases :
    ((cmdAt busy (rsv [0])).startCmd (↑5) (7#32) 1 = some (rsv [0], ust (cmdAt busy (rsv [0])) 5 7 1) ∧
        (cmdAt busy (rsv [0])).host.reserving = [] ∧
          let ks' := dClusters (rsv [0]);
          let busy' :=
            ks'.any fun k =>
              ((cmdAt busy (rsv [0])).regionOf? k).isSome || ((cmdAt busy (rsv [0])).cl k).retired ||
                (cmdAt busy (rsv [0])).retirePending k;
          busy' = true) ∧
    (s2.startCmd (↑5) (7#32) 1 = some (rsv [20, 21], ust s2 5 7 1) ∧
        s2.host.reserving = [] ∧
          (let ks' := dClusters (rsv [20, 21]);
            let busy' := ks'.any fun k => (s2.regionOf? k).isSome || (s2.cl k).retired || s2.retirePending k;
            busy' = false) ∧
            let ks' := dClusters (rsv [20, 21]);
            let live' := ks'.all s2.isLive;
            live' = false) ∧
    (s3.startCmd (↑5) (7#32) 1 = some (rsv [20, 21], ust s3 5 7 1) ∧
        s3.host.reserving = [] ∧
          (let ks' := dClusters (rsv [20, 21]);
            let busy' := ks'.any fun k => (s3.regionOf? k).isSome || (s3.cl k).retired || s3.retirePending k;
            busy' = false) ∧
            (let ks' := dClusters (rsv [20, 21]);
              let live' := ks'.all s3.isLive;
              live' = true) ∧
              (let room' := (upto 128).any fun r => (s3.region r).state == RegionState.free;
                room' = true) ∧
                let ks' := dClusters (rsv [20, 21]);
                let dark' := ks'.any fun k => (s3.cl k).power == DomainState.off;
                dark' = false) ∧
    (s4.startCmd (↑5) (7#32) 1 = some (rsv [20, 21], ust s4 5 7 1) ∧
        s4.host.reserving = [] ∧
          (let ks' := dClusters (rsv [20, 21]);
            let busy' := ks'.any fun k => (s4.regionOf? k).isSome || (s4.cl k).retired || s4.retirePending k;
            busy' = false) ∧
            (let ks' := dClusters (rsv [20, 21]);
              let live' := ks'.all s4.isLive;
              live' = true) ∧
              (let room' := (upto 128).any fun r => (s4.region r).state == RegionState.free;
                room' = true) ∧
                let ks' := dClusters (rsv [20, 21]);
                let dark' := ks'.any fun k => (s4.cl k).power == DomainState.off;
                dark' = true) ∧
    (s5.startCmd (↑5) (7#32) 1 = some (rsv [20, 21], ust s5 5 7 1) ∧
        s5.host.reserving = [] ∧
          (let ks' := dClusters (rsv [20, 21]);
            let busy' := ks'.any fun k => (s5.regionOf? k).isSome || (s5.cl k).retired || s5.retirePending k;
            busy' = false) ∧
            (let ks' := dClusters (rsv [20, 21]);
              let live' := ks'.all s5.isLive;
              live' = true) ∧
              let room' := (upto 128).any fun r => (s5.region r).state == RegionState.free;
              room' = false) ∧
    (z1.host.reserving = [(↑5, 7#32, some (-500#48))] ∧ ((z1.ctx ↑5).command 7#32).isSome = true) ∧
    (s6.startCmd (↑5) (7#32) 2 = some (rel 0 3, ust s6 5 7 2) ∧
        (let r' := dRegion (rel 0 3);
          s6.owns (↑5) r' = true) ∧
          (let r' := dRegion (rel 0 3);
            (s6.region r').clearing = none) ∧
            dForce (rel 0 3) = false) ∧
    (s6'.startCmd (↑5) (7#32) 2 = some (rel 0 4, ust s6' 5 7 2) ∧
        let r' := dRegion (rel 0 4);
        s6'.owns (↑5) r' = false) ∧
    (s7.startCmd (↑5) (7#32) 2 = some (rel 1 3, ust s7 5 7 2) ∧
        (let r' := dRegion (rel 1 3);
          s7.owns (↑5) r' = true) ∧
          (let r' := dRegion (rel 1 3);
            (s7.region r').clearing = none) ∧
            dForce (rel 1 3) = true ∧
              (let r' := dRegion (rel 1 3);
                ∃ g, (s7.region r').task = some g ∧ g.started = false) ∧
                let r' := dRegion (rel 1 3);
                (s7.region r').load = none) ∧
    ((s8.region ↑3).clearing = some (5, 7#32, 3013#48) ∧
        (s8.region ↑3).task = none ∧ (s8.region ↑3).load = none ∧ s8.host.reserving = [] ∧ ((s8.ctx 5).command 7#32).isSome = true) := by
  refine ⟨?_, ?_, ?_, ?_, ?_, ?_, ?_, ?_, ?_, ?_⟩ <;> decide +kernel

theorem test_premises_loads_are_judged :
    ((s9 (ld 4 0 0) RegionState.loaded).startCmd (↑5) (7#32) 3 = some (ld 4 0 0, ust (s9 (ld 4 0 0) RegionState.loaded) 5 7 3) ∧
        let r' := dRegion (ld 4 0 0);
        (s9 (ld 4 0 0) RegionState.loaded).owns (↑5) r' = false) ∧
    ((s9 (ld 3 0 (3014 + 65537)) RegionState.loaded).startCmd (↑5) (7#32) 3 =
          some (ld 3 0 (3014 + 65537), ust (s9 (ld 3 0 (3014 + 65537)) RegionState.loaded) 5 7 3) ∧
        let r' := dRegion (ld 3 0 (3014 + 65537));
        let cb' := BitVec.ofNat 48 (field (ld 3 0 (3014 + 65537)) 207 160);
        let far' :=
          cb' ≠ 0#48 ∧
            65536 < (cb' - (s9 (ld 3 0 (3014 + 65537)) RegionState.loaded).beat).toNat ∧
              (cb' - (s9 (ld 3 0 (3014 + 65537)) RegionState.loaded).beat).toNat < 2 ^ 47;
        (s9 (ld 3 0 (3014 + 65537)) RegionState.loaded).owns (↑5) r' = true ∧ far') ∧
    ((s9 (ld 3 0 (3014 + 65536)) RegionState.loaded).startCmd (↑5) (7#32) 3 =
          some (ld 3 0 (3014 + 65536), ust (s9 (ld 3 0 (3014 + 65536)) RegionState.loaded) 5 7 3) ∧
        let r' := dRegion (ld 3 0 (3014 + 65536));
        let g' := (s9 (ld 3 0 (3014 + 65536)) RegionState.loaded).region r';
        let cb' := BitVec.ofNat 48 (field (ld 3 0 (3014 + 65536)) 207 160);
        let far' :=
          cb' ≠ 0#48 ∧
            65536 < (cb' - (s9 (ld 3 0 (3014 + 65536)) RegionState.loaded).beat).toNat ∧
              (cb' - (s9 (ld 3 0 (3014 + 65536)) RegionState.loaded).beat).toNat < 2 ^ 47;
        let pending' := g'.clusters.any (s9 (ld 3 0 (3014 + 65536)) RegionState.loaded).retirePending;
        let fits' :=
          g'.state = RegionState.reserved ∨
            g'.state = RegionState.loaded ∨ dMode (ld 3 0 (3014 + 65536)) = 1 ∧ g'.state = RegionState.faulted;
        (s9 (ld 3 0 (3014 + 65536)) RegionState.loaded).owns (↑5) r' = true ∧ ¬far' ∧ pending' = false ∧ fits') ∧
    ((s9 (ld 3 0 0) RegionState.faulted).startCmd (↑5) (7#32) 3 = some (ld 3 0 0, ust (s9 (ld 3 0 0) RegionState.faulted) 5 7 3) ∧
        let r' := dRegion (ld 3 0 0);
        let g' := (s9 (ld 3 0 0) RegionState.faulted).region r';
        let cb' := BitVec.ofNat 48 (field (ld 3 0 0) 207 160);
        let far' :=
          cb' ≠ 0#48 ∧
            65536 < (cb' - (s9 (ld 3 0 0) RegionState.faulted).beat).toNat ∧
              (cb' - (s9 (ld 3 0 0) RegionState.faulted).beat).toNat < 2 ^ 47;
        let pending' := g'.clusters.any (s9 (ld 3 0 0) RegionState.faulted).retirePending;
        let fits' :=
          g'.state = RegionState.reserved ∨ g'.state = RegionState.loaded ∨ dMode (ld 3 0 0) = 1 ∧ g'.state = RegionState.faulted;
        (s9 (ld 3 0 0) RegionState.faulted).owns (↑5) r' = true ∧ ¬far' ∧ pending' = false ∧ ¬fits') ∧
    (s10.startCmd (↑5) (7#32) 3 = some (ld 3 0 0, ust s10 5 7 3) ∧
        let r' := dRegion (ld 3 0 0);
        let g' := s10.region r';
        let cb' := BitVec.ofNat 48 (field (ld 3 0 0) 207 160);
        let far' := cb' ≠ 0#48 ∧ 65536 < (cb' - s10.beat).toNat ∧ (cb' - s10.beat).toNat < 2 ^ 47;
        let pending' := g'.clusters.any s10.retirePending;
        s10.owns (↑5) r' = true ∧ ¬far' ∧ pending' = true) := by
  refine ⟨?_, ?_, ?_, ?_, ?_⟩ <;> decide +kernel

theorem test_premises_loads_drain_and_close :
    (((s11 L).region ↑3).load = some L ∧ L.started = false) ∧
    (s12.regionOf? ↑0 = some (3, s12.region 3) ∧
        (s12.region 3).drainLoad.isSome = true ∧
          let u' := s12.reachBoundary 4096;
          (s12.cl ↑0).firedBeat ≠ u'.beats ∧
            (s12.cl ↑0).bubbleEnd ≤ u'.clock ∧
              (s12.cl ↑0).frozen = false ∧
                firstSome (s12.cl ↑0).hasTokens (List.map (fun i => ((s12.cl ↑0).activeFold + 1 + i) % 8) (upto 7)) = some 4) ∧
    ((s12.region ↑3).drainLoad = some Ls ∧
        ((s12.ctx Ls.ctx).command Ls.seq).isSome = true ∧
          let u' := s12.reachBeat (Ls.accepted + BitVec.ofNat 48 (2 + Ls.drainBeats));
          u'.isDrained (s12.region ↑3).clusters = false) := by
  refine ⟨?_, ?_, ?_⟩ <;> decide +kernel

theorem test_premises_sections_are_written_and_committed :
    (((s11 Lc).region ↑3).load = some Lc ∧
        Lc.closedAt.isSome = true ∧ Lc.staged = false ∧ (((s11 Lc).ctx Lc.ctx).command Lc.seq).isSome = true) ∧
    ((s14.region ↑3).load = some Lt ∧ Lt.staged = true ∧ Lt.commit = none) ∧
    ((s16.region ↑3).load = some Lw ∧
        Lw.commit = some 3016#48 ∧
          s16.inOrder (3016#48) (actionRank 2) = true ∧ (s16.region ↑3).clusters.Nodup ∧ ((s16.ctx Lw.ctx).command Lw.seq).isSome = true) := by
  refine ⟨?_, ?_, ?_⟩ <;> decide +kernel

end T04

namespace T05

def en (cfg : Nat) (s : State) : State := (((s.setReg (pgContext 5) 0x40 (2^31 + cfg)).setReg (pgContext 5) 0x80 3).setReg (pgContext 5) 0x84 0).setReg (pgContext 5) 0x50 0x8000
def b1 := en 0x44 busy
def b2 := { b1 with host := { b1.host with bytes := [(256, 5), (260, 255)] } }
def b3 := { b1 with host := { b1.host with bytes := [(0x8020 + 3, 5), (0x8040, 3)], contexts := [(5, {B.ctx with waiting := [recordOf { seq := 7, desc := BitVec.ofNat 1024 (5 + 65536*9 + 2^32 * 255)} 3 77, 5], armed := true })] } }
def b4 := { b1 with host := { b1.host with contexts := [(5, {B.ctx with waiting := [recordOf { seq := 7, desc := BitVec.ofNat 1024 (5 + 65536*9 + 2^32 * 255)} 3 77, 5], armed := false, cqTail := 15, phase := true })] } }
def z2 : State := { busy with host := { busy.host with masked := [64, 3], msixPending := [64, 2] } }
def z3 : State := { busy with host := { busy.host with masked := [64, 3], msixPending := [64, 2] } }
def z4 : State := { busy with host := { busy.host with xlt := [(5, 1, 2), (6, 3, 1)] } }
def b5 (l : List Nat) := ({ busy with host := { busy.host with deviceBias := l } }).setReg pgCxl 0x40 4
def b6 := busy.modPage (pgDispatch 5) fun p => { p with inReset := true }
def b7 := { busy with wakes := [(3, { records := [⟨1,2,9,false⟩, ⟨1,2,7,true⟩] })] }

theorem test_premises_contexts_and_doorbells :
    (bitAt (busy.regOf (pgContext ↑5) 64) 31 = false ∧
        busy.boot.phase = BootPhase.released ∧
          4 ≤ field ((busy.plainWrite 3 (pgContext ↑5) 64 (68#32 ||| 2147483648#32)).regOf (pgContext ↑5) 64) 7 4 ∧
            field ((busy.plainWrite 3 (pgContext ↑5) 64 (68#32 ||| 2147483648#32)).regOf (pgContext ↑5) 64) 7 4 ≤ 12 ∧
              4 ≤ field ((busy.plainWrite 3 (pgContext ↑5) 64 (68#32 ||| 2147483648#32)).regOf (pgContext ↑5) 64) 3 0 ∧
                field ((busy.plainWrite 3 (pgContext ↑5) 64 (68#32 ||| 2147483648#32)).regOf (pgContext ↑5) 64) 3 0 ≤ 12) ∧
    (bitAt (busy.regOf (pgContext ↑5) 64) 31 = false ∧
        busy.boot.phase = BootPhase.released ∧
          ¬(4 ≤ field ((busy.plainWrite 3 (pgContext ↑5) 64 (67#32 ||| 2147483648#32)).regOf (pgContext ↑5) 64) 7 4 ∧
              field ((busy.plainWrite 3 (pgContext ↑5) 64 (67#32 ||| 2147483648#32)).regOf (pgContext ↑5) 64) 7 4 ≤ 12 ∧
                4 ≤ field ((busy.plainWrite 3 (pgContext ↑5) 64 (67#32 ||| 2147483648#32)).regOf (pgContext ↑5) 64) 3 0 ∧
                  field ((busy.plainWrite 3 (pgContext ↑5) 64 (67#32 ||| 2147483648#32)).regOf (pgContext ↑5) 64) 3 0 ≤ 12)) ∧
    (b1.pageOpen 3 (pgContext ↑5) = true ∧
        let n' := pgContext ↑5;
        let size' := b1.sqSize ↑5;
        let new' := (1#32).toNat % 4096;
        let tail' := b1.regOf n' 128;
        let used' := (tail' + 4096 - (b1.ctx ↑5).sqHead) % size';
        (new' + 4096 - tail') % size' ≤ size' - 1 - used') ∧
    (b1.pageOpen 3 (pgContext ↑5) = true ∧
        let n' := pgContext ↑5;
        let size' := b1.sqSize ↑5;
        let new' := (2#32).toNat % 4096;
        let tail' := b1.regOf n' 128;
        let used' := (tail' + 4096 - (b1.ctx ↑5).sqHead) % size';
        size' - 1 - used' < (new' + 4096 - tail') % size') ∧
    (b1.pageOpen 3 (pgContext ↑5) = true ∧
        let n' := pgContext ↑5;
        let size' := b1.cqSize ↑5;
        let new' := (2147483649#32).toNat % 4096;
        let head' := b1.regOf n' 132;
        let tail' := (b1.ctx ↑5).cqTail;
        (new' + 4096 - head') % size' ≤ (tail' + 4096 - head') % size' ∧ bitAt (2147483649#32).toNat 31 = true ∧ tail' = new') ∧
    (b1.pageOpen 3 (pgContext ↑5) = true ∧
        let n' := pgContext ↑5;
        let size' := b1.cqSize ↑5;
        let new' := (2147483648#32).toNat % 4096;
        let head' := b1.regOf n' 132;
        let tail' := (b1.ctx ↑5).cqTail;
        (new' + 4096 - head') % size' ≤ (tail' + 4096 - head') % size' ∧ bitAt (2147483648#32).toNat 31 = true ∧ tail' ≠ new') ∧
    (b1.pageOpen 3 (pgContext ↑5) = true ∧
        let n' := pgContext ↑5;
        let size' := b1.cqSize ↑5;
        let new' := (2#32).toNat % 4096;
        let head' := b1.regOf n' 132;
        let tail' := (b1.ctx ↑5).cqTail;
        (tail' + 4096 - head') % size' < (new' + 4096 - head') % size') ∧
    (b1.pageOpen 3 (pgContext ↑5) = true ∧
        let n' := pgContext ↑5;
        let size' := b1.cqSize ↑5;
        let new' := (1#32).toNat % 4096;
        let head' := b1.regOf n' 132;
        let tail' := (b1.ctx ↑5).cqTail;
        (new' + 4096 - head') % size' ≤ (tail' + 4096 - head') % size' ∧ bitAt (1#32).toNat 31 = false) := by
  refine ⟨?_, ?_, ?_, ?_, ?_, ?_, ?_, ?_⟩ <;> decide +kernel

theorem test_premises_rings_are_served :
    (let n' := pgContext ↑5;
      let c' := b1.ctx ↑5;
      bitAt (b1.regOf n' 64) 31 = true ∧
        c'.sqHead ≠ b1.regOf n' 128 % b1.sqSize ↑5 ∧
          c'.inProgress.length < 16 ∧
            let d' := ofBytes (memReadList b1.host.bytes (b1.ctxBase (↑5) 72 + 128 * c'.sqHead) 128);
            descBad d' = true) ∧
    (let n' := pgContext ↑5;
      let c' := (b2.setReg (pgContext 5) 128 1).ctx ↑5;
      bitAt ((b2.setReg (pgContext 5) 128 1).regOf n' 64) 31 = true ∧
        c'.sqHead ≠ (b2.setReg (pgContext 5) 128 1).regOf n' 128 % (b2.setReg (pgContext 5) 128 1).sqSize ↑5 ∧
          c'.inProgress.length < 16 ∧
            let d' :=
              ofBytes
                (memReadList (b2.setReg (pgContext 5) 128 1).host.bytes
                  ((b2.setReg (pgContext 5) 128 1).ctxBase (↑5) 72 + 128 * c'.sqHead) 128);
            descBad d' = false) ∧
    ((b3.ctx ↑5).waiting =
          [recordOf { seq := 7#32, desc := BitVec.ofNat 1024 (5 + 65536 * 9 + 2 ^ 32 * 255), start := 0#48 : Command } 3 77, 5#256] ∧
        b3.cqFull ↑5 = false ∧
          (memWf b3.mem.bytes ∧ memWf b3.host.bytes) ∧
            let c' := b3.ctx ↑5;
            c'.sqHead < 4096 ∧
              field
                    (recordOf { seq := 7#32, desc := BitVec.ofNat 1024 (5 + 65536 * 9 + 2 ^ 32 * 255), start := 0#48 : Command } 3
                        77).toNat
                    55 0 =
                  0 ∧
                c'.armed = true) ∧
    (((b4.setReg (pgContext 5) 132 4).ctx ↑5).waiting =
          [recordOf { seq := 7#32, desc := BitVec.ofNat 1024 (5 + 65536 * 9 + 2 ^ 32 * 255), start := 0#48 : Command } 3 77, 5#256] ∧
        (b4.setReg (pgContext 5) 132 4).cqFull ↑5 = false ∧
          (memWf (b4.setReg (pgContext 5) 132 4).mem.bytes ∧ memWf (b4.setReg (pgContext 5) 132 4).host.bytes) ∧
            let c' := (b4.setReg (pgContext 5) 132 4).ctx ↑5;
            c'.sqHead < 4096 ∧
              field
                    (recordOf { seq := 7#32, desc := BitVec.ofNat 1024 (5 + 65536 * 9 + 2 ^ 32 * 255), start := 0#48 : Command } 3
                        77).toNat
                    55 0 =
                  0 ∧
                c'.armed = false) := by
  refine ⟨?_, ?_, ?_, ?_⟩ <;> decide +kernel

theorem test_premises_host_side_commands :
    (z2.host.msixPending.contains ↑64 = true) ∧
    (z3.host.msixPending.contains ↑3 = false) ∧
    (z4.pageOpen 3 (pgContext ↑5) = true) ∧
    ((b5 [3]).pageOpen 3 pgCxl = true ∧ (b5 [3]).regOf pgCxl 64 < 966656 ∧ bitAt (1#32).toNat 0 = true) ∧
    ((b5 [3]).pageOpen 3 pgCxl = true ∧ (b5 [3]).regOf pgCxl 64 < 966656 ∧ bitAt (0#32).toNat 0 = false) ∧
    ((b5 [4, 3]).pageOpen 3 pgCxl = true ∧
        (b5 [4, 3]).regOf pgCxl 64 < 966656 ∧
          bitAt (0#32).toNat 0 = false ∧ (b5 [4, 3]).host.deviceBias.contains ((b5 [4, 3]).regOf pgCxl 64) = true) ∧
    ((b6.page (pgDispatch (↑5 % 16))).inReset = true ∧ (b6.ctx ↑5).moved = false) ∧
    (b7.answers 3 (pgDispatch ↑3) = true ∧
        (b7.wakeQueue ↑3).records =
          [{ cookie := 1#32, vid := 2#12, value := 9#64, poison := false : WakeRecord },
            { cookie := 1#32, vid := 2#12, value := 7#64, poison := true : WakeRecord }]) := by
  refine ⟨?_, ?_, ?_, ?_, ?_, ?_, ?_, ?_⟩ <;> decide +kernel

end T05

namespace T05b

def cmdAt (s : State) (d : Nat) : State := { s with host := { s.host with contexts := [(5, { B.ctx with inProgress := [{ seq := 7, desc := BitVec.ofNat 1024 d }, { seq := 8, desc := 9 }] })] } }
def ust (s : State) (x seq op : Nat) : State := match s.startCmd x (BitVec.ofNat 32 seq) op with | some (_, u) => u | none => s
def live (s : State) : State := { s with ready := { s.ready with cd := [0,1,2,3,4,5,6,7], msd := [0,1,2,3,4,5,6,7], lpddr := true } }
def cx : State := { (live busy) with mem := { bytes := [(0x1000000007F, 3), (0x10000000085, 1), (0x100000000C0, 9)] } }
def q (d : Nat) := cmdAt busy d
def fn : Nat := 5 + 65536 * 9
def qu (w r : Nat) : Nat := 11 + w * 2^64 + r * 2^32
def mem0 (bs : List Byte := []) (a : Nat := 0x10000000100) : DeviceMemory :=
  { bytes := memWriteList [(0x1000000007F, 3), (0x10000000105, 1), (0x10000000120, 9), (0x10000000203, 8), (0x10000000220, 4)] a bs, granules := [(granuleOf 0x10000000080, 0x85)] }
def qm (d : Nat) (bs : List Byte := []) : State := { (q d) with mem := mem0 bs, regions := [] }
def cp (src dst : Nat) : Nat := 9 + src * 2^64 + dst * 2^128 + 32 * 2^192
def c1 := cp 0x10000000100 0x10000000200
def c4 := cp 0x10010000100 0x10000000200
def f2 (a : Nat) : Nat := 10 + a * 2^128 + 32 * 2^192 + 0x1122334455667788 * 2^256
def sv (l : Nat) (a : Nat := 0x10000000100) : Nat := 12 + a * 2^64 + l * 2^128
def rs : Nat := 13 + 0x10000000100 * 2^64 + 1000 * 2^128
def img (magic : Nat) : List Byte := toBytes 64 (magic + 2^32) ++ toBytes 64 0 ++ toBytes 16 0x434E4348
def qr (m : Nat) := qm rs (img m)

theorem test_premises_host_side_commands_2 :
    (cx.rangeActive ↑0 = true ∧
        cx.hostUnavailable ((if ↑0 = 0 then 1099511627776 else 2199023255552) + (131#40).toNat / 64 * 64) = false) ∧
    (busy.rangeActive ↑1 = false) := by
  refine ⟨?_, ?_⟩ <;> decide +kernel

theorem test_premises_transfers_queries_and_images :
    ((q fn).startCmd (↑5) (7#32) 5 = some (fn, ust (q fn) 5 7 5)) ∧
    ((q (qu 0 3)).startCmd (↑5) (7#32) 11 = some (qu 0 3, ust (q (qu 0 3)) 5 7 11) ∧
        (let r' := dRegion (qu 0 3);
          let what' := field (qu 0 3) 67 64;
          let foreign' := (r' ≠ 255 ∨ what' = 0) ∧ (q (qu 0 3)).owns (↑5) r' = false;
          ¬foreign') ∧
          let what' := field (qu 0 3) 67 64;
          what' = 0) ∧
    ((q (qu 0 255)).startCmd (↑5) (7#32) 11 = some (qu 0 255, ust (q (qu 0 255)) 5 7 11) ∧
        let r' := dRegion (qu 0 255);
        let what' := field (qu 0 255) 67 64;
        let foreign' := (r' ≠ 255 ∨ what' = 0) ∧ (q (qu 0 255)).owns (↑5) r' = false;
        foreign') ∧
    ((q (qu 1 255)).startCmd (↑5) (7#32) 11 = some (qu 1 255, ust (q (qu 1 255)) 5 7 11) ∧
        (let r' := dRegion (qu 1 255);
          let what' := field (qu 1 255) 67 64;
          let foreign' := (r' ≠ 255 ∨ what' = 0) ∧ (q (qu 1 255)).owns (↑5) r' = false;
          ¬foreign') ∧
          let what' := field (qu 1 255) 67 64;
          what' = 1) ∧
    ((q (qu 2 3)).startCmd (↑5) (7#32) 11 = some (qu 2 3, ust (q (qu 2 3)) 5 7 11) ∧
        (let r' := dRegion (qu 2 3);
          let what' := field (qu 2 3) 67 64;
          let foreign' := (r' ≠ 255 ∨ what' = 0) ∧ (q (qu 2 3)).owns (↑5) r' = false;
          ¬foreign') ∧
          let what' := field (qu 2 3) 67 64;
          what' = 2) ∧
    ((q (qu 3 3)).startCmd (↑5) (7#32) 11 = some (qu 3 3, ust (q (qu 3 3)) 5 7 11) ∧
        (let r' := dRegion (qu 3 3);
          let what' := field (qu 3 3) 67 64;
          let foreign' := (r' ≠ 255 ∨ what' = 0) ∧ (q (qu 3 3)).owns (↑5) r' = false;
          ¬foreign') ∧
          let what' := field (qu 3 3) 67 64;
          what' = 3) ∧
    ((qm c1).startCmd (↑5) (7#32) 9 = some (c1, ust (qm c1) 5 7 9) ∧
        dLen c1 % 32 = 0 ∧
          dImage c1 % 32 = 0 ∧
            dDst c1 % 32 = 0 ∧
              copyOverlaps c1 = false ∧
                (memWf (qm c1).mem.bytes ∧ memWf (qm c1).host.bytes) ∧
                  (qm c1).mayAccess (↑5) (dImage c1) (dLen c1) false = true ∧ (qm c1).mayAccess (↑5) (dDst c1) (dLen c1) true = true) ∧
    ((qm c4).startCmd (↑5) (7#32) 9 = some (c4, ust (qm c4) 5 7 9) ∧
        0 < dLen c4 ∧ dImage c4 % 32 = 0 ∧ placeOf (dImage c4) = Place.lpddr 0 33554688 ∧ (qm c4).memStatus (↑5) (dImage c4) false ≠ 0) ∧
    ((qm (f2 1099511628032)).startCmd (↑5) (7#32) 10 = some (f2 1099511628032, ust (qm (f2 1099511628032)) 5 7 10) ∧
        dLen (f2 1099511628032) % 32 = 0 ∧
          dDst (f2 1099511628032) % 32 = 0 ∧
            (memWf (qm (f2 1099511628032)).mem.bytes ∧ memWf (qm (f2 1099511628032)).host.bytes) ∧
              (qm (f2 1099511628032)).mayAccess (↑5) (dDst (f2 1099511628032)) (dLen (f2 1099511628032)) true = true) ∧
    ((qm (f2 1099780063488)).startCmd (↑5) (7#32) 10 = some (f2 1099780063488, ust (qm (f2 1099780063488)) 5 7 10) ∧
        0 < dLen (f2 1099780063488) ∧
          dDst (f2 1099780063488) % 32 = 0 ∧
            placeOf (dDst (f2 1099780063488)) = Place.lpddr 0 33554688 ∧
              (qm (f2 1099780063488)).memStatus (↑5) (dDst (f2 1099780063488)) true ≠ 0) ∧
    (((qm (sv 200)).saveImage ↑5).length ≤ field (sv 200) 159 128 ∧
        (qm (sv 200)).mayAccess (↑5) (dImage (sv 200)) ((qm (sv 200)).saveImage ↑5).length true = true) ∧
    (field (sv 143) 159 128 < ((qm (sv 143)).saveImage ↑5).length) ∧
    (((qm (sv 144 1099780063488)).saveImage ↑5).length ≤ field (sv 144 1099780063488) 159 128 ∧
        placeOf (dImage (sv 144 1099780063488) / 32 * 32) = Place.lpddr 0 33554688 ∧
          (qm (sv 144 1099780063488)).memStatus (↑5) (dImage (sv 144 1099780063488) / 32 * 32) true ≠ 0) ∧
    (field
            (imageWord
              ((qr 1129601107).memBytes (dImage rs)
                ((recordOffsets 64 (List.map (fun r => r.snd.clusters.length) ((qr 1129601107).ownedRegions ↑5))).getLast?.getD 64 +
                  80))
              0 64)
            31 0 =
          1129601107 ∧
        field
              (imageWord
                ((qr 1129601107).memBytes (dImage rs)
                  ((recordOffsets 64 (List.map (fun r => r.snd.clusters.length) ((qr 1129601107).ownedRegions ↑5))).getLast?.getD 64 +
                    80))
                0 64)
              39 32 =
            1 ∧
          field
                (imageWord
                  ((qr 1129601107).memBytes (dImage rs)
                    ((recordOffsets 64 (List.map (fun r => r.snd.clusters.length) ((qr 1129601107).ownedRegions ↑5))).getLast?.getD 64 +
                      80))
                  0 64)
                53 46 =
              ((qr 1129601107).ownedRegions ↑5).length ∧
            regionsAgree
                  ((qr 1129601107).memBytes (dImage rs)
                    ((recordOffsets 64 (List.map (fun r => r.snd.clusters.length) ((qr 1129601107).ownedRegions ↑5))).getLast?.getD 64 +
                      80))
                  (List.map (fun r => r.snd.clusters.length) ((qr 1129601107).ownedRegions ↑5)) =
                true ∧
              field
                    (imageWord
                      ((qr 1129601107).memBytes (dImage rs)
                        ((recordOffsets 64 (List.map (fun r => r.snd.clusters.length) ((qr 1129601107).ownedRegions ↑5))).getLast?.getD
                            64 +
                          80))
                      ((recordOffsets 64 (List.map (fun r => r.snd.clusters.length) ((qr 1129601107).ownedRegions ↑5))).getLast?.getD
                          64 +
                        64)
                      16)
                    31 0 =
                  1129202504 ∧
                field
                      (imageWord
                        ((qr 1129601107).memBytes (dImage rs)
                          ((recordOffsets 64
                                    (List.map (fun r => r.snd.clusters.length) ((qr 1129601107).ownedRegions ↑5))).getLast?.getD
                              64 +
                            80))
                        ((recordOffsets 64 (List.map (fun r => r.snd.clusters.length) ((qr 1129601107).ownedRegions ↑5))).getLast?.getD
                            64 +
                          64)
                        16)
                      40 32 ≤
                    256 ∧
                  field
                        (imageWord
                          ((qr 1129601107).memBytes (dImage rs)
                            ((recordOffsets 64
                                      (List.map (fun r => r.snd.clusters.length) ((qr 1129601107).ownedRegions ↑5))).getLast?.getD
                                64 +
                              80))
                          ((recordOffsets 64
                                    (List.map (fun r => r.snd.clusters.length) ((qr 1129601107).ownedRegions ↑5))).getLast?.getD
                              64 +
                            64)
                          16)
                        54 41 ≤
                      8192 ∧
                    (∀ (b : SavedBlock),
                        b ∈
                            savedBlocks
                              ((qr 1129601107).memBytes
                                (dImage rs +
                                  ((recordOffsets 64
                                            (List.map (fun r => r.snd.clusters.length) ((qr 1129601107).ownedRegions ↑5))).getLast?.getD
                                      64 +
                                    80))
                                (136 *
                                  field
                                    (imageWord
                                      ((qr 1129601107).memBytes (dImage rs)
                                        ((recordOffsets 64
                                                  (List.map (fun r => r.snd.clusters.length)
                                                    ((qr 1129601107).ownedRegions ↑5))).getLast?.getD
                                            64 +
                                          80))
                                      ((recordOffsets 64
                                                (List.map (fun r => r.snd.clusters.length)
                                                  ((qr 1129601107).ownedRegions ↑5))).getLast?.getD
                                          64 +
                                        64)
                                      16)
                                    40 32))
                              0
                              (field
                                (imageWord
                                  ((qr 1129601107).memBytes (dImage rs)
                                    ((recordOffsets 64
                                              (List.map (fun r => r.snd.clusters.length)
                                                ((qr 1129601107).ownedRegions ↑5))).getLast?.getD
                                        64 +
                                      80))
                                  ((recordOffsets 64
                                            (List.map (fun r => r.snd.clusters.length) ((qr 1129601107).ownedRegions ↑5))).getLast?.getD
                                      64 +
                                    64)
                                  16)
                                40 32) →
                          ((qr 1129601107).mappedBlocks ↑5).contains b.vid = true) ∧
                      (List.flatMap (fun r => r.snd.clusters) ((qr 1129601107).ownedRegions ↑5)).Nodup) ∧
    (field
          (imageWord
            ((qr 1129601108).memBytes (dImage rs)
              ((recordOffsets 64 (List.map (fun r => r.snd.clusters.length) ((qr 1129601108).ownedRegions ↑5))).getLast?.getD 64 + 80))
            0 64)
          31 0 ≠
        1129601107) := by
  refine ⟨?_, ?_, ?_, ?_, ?_, ?_, ?_, ?_, ?_, ?_, ?_, ?_, ?_, ?_, ?_⟩ <;> decide +kernel

end T05b

namespace T05c

def cmdAt (s : State) (d : Nat) : State := { s with host := { s.host with contexts := [(5, { B.ctx with inProgress := [{ seq := 7, desc := BitVec.ofNat 1024 d }, { seq := 8, desc := 9 }] })] } }
def ust (s : State) (x seq op : Nat) : State := match s.startCmd x (BitVec.ofNat 32 seq) op with | some (_, u) => u | none => s
def q (d : Nat) := cmdAt busy d
def cs (op : Nat) : Nat := op + 0x103 * 2^64 + 77 * 2^128
def wt : Nat := cs 8 + 20 * 2^208
def s1 : State := { busy with host := { busy.host with contexts := [(5, { B.ctx with inProgress := [{ seq := 7, desc := BitVec.ofNat 1024 wt, started := true, start := 3010 }, { seq := 8, desc := 9 }] })] } }

theorem test_premises_cinch_commands_send_their_packet :
    ((q (cs 6)).startCmd (↑5) (7#32) 6 = some (cs 6, ust (q (cs 6)) 5 7 6)) ∧
    ((s1.ctx ↑5).command 7#32 = some { seq := 7#32, desc := BitVec.ofNat 1024 wt, started := true, start := 3010#48 : Command } ∧
        { seq := 7#32, desc := BitVec.ofNat 1024 wt, started := true, start := 3010#48 : Command }.started = true ∧
          dOp { seq := 7#32, desc := BitVec.ofNat 1024 wt, started := true, start := 3010#48 : Command }.desc.toNat = 8 ∧
            dWaitBeats { seq := 7#32, desc := BitVec.ofNat 1024 wt, started := true, start := 3010#48 : Command }.desc.toNat ≠ 0 ∧
              { seq := 7#32, desc := BitVec.ofNat 1024 wt, started := true, start := 3010#48 : Command }.cancel = 0) := by
  refine ⟨?_, ?_⟩ <;> decide +kernel

end T05c

namespace T06

def cw (l : List (Nat × Nat)) : BitVec 512 := BitVec.ofNat 512 (l.foldl (fun n p => n + p.2 * 2 ^ p.1) (2^63))
def qe (p : Nat) (c : Bool := false) (e : Bool := false) : QueueEntry := ⟨{ payload := BitVec.ofNat 128 p, ctrl := c, endBit := e }, 12, 0⟩
def withCore (c : CoreState) (s : State := busy) : State := s.modCore 0 5 fun _ => c
def id5 : CoreId := ⟨0, 0, 5⟩
def wD : BitVec 512 := cw [(124, 1), (120, 0), (113, 13), (108, 9), (46, 1), (256, 8), (104, 2), (101, 1)]
def cD : CoreState := { slots := [(0, wD)], queues := [(2, [qe 0x3f803f80]), (3, [qe 0x40004000])], store := [(0, { bits := 0x3f80})], acc := [(2, ⟨0x40000000, false⟩)], ctr := [(0, 2)] }
def fire (a : State → CoreState → Nat → Nat → Nat → Attempt) (s : State) (e : Nat) : Firing :=
  let v := opportunityOf id5 e s
  let f := (v.cl 0).activeFold
  match a v (v.core 0 5) f ((v.core 0 5).word f) v.clock with | .fired x => x | _ => { core := {}, next := 0 }
def wL : BitVec 512 := cw [(187, 2), (184, 1), (179, 1), (174, 4), (159, 4*64 + 6*8), (30, 3)]
def cL : CoreState := { slots := [(0, wL)], queues := [(1, [qe 0x3f800000]), (4, [qe 0x40000000])] }
def wS (op : Nat) : BitVec 512 := cw [(252, op), (247, 0), (242, 1), (237, 4), (234, 0), (224, 4*64+6*8), (214, 4*64+7*8), (206, 3), (30, 3), (35, 2)]
def ctlTok (v l : Nat) (fst lst : Bool) : QueueEntry := ⟨{ payload := controlPayload v l fst lst false, ctrl := true }, 12, 0⟩
def cS (op : Nat) (l : Bool) : CoreState := { slots := [(0, wS op)], queues := [(0, [ctlTok 1 0 l l]), (1, [qe 0x11, qe 0x22]), (4, [qe 0x33])] }
def rd (op : Nat) (l : Bool) : CeReads := let v := opportunityOf id5 2 (withCore (cS op l)); ((ceReads ((v.core 0 5).asOf v.clock) 0 (wS op).toNat v.clock).getD ⟨none, {}, 0⟩)
def ld (t : Target) : CoreState := { cS 1 true with landing := [⟨400, .store 3, {payload := 5, poison := true}, 340⟩, ⟨350, t, {payload := 9, poison := true}, 340⟩], emissions := [⟨400, .store 3, {payload := 5}, 340⟩, ⟨320, t, {payload := 9}, 340⟩] }
def cStr : CoreState := { cS 1 true with queues := [(0, [ctlTok 1 0 true true]), (1, [ctlTok 1 0 true true])] }

theorem test_premises_dpe_accumulates :
    (let k' := ↑id5.k;
      let n' := coreNum id5;
      let v' := opportunityOf id5 0 (withCore cD);
      let f' := (v'.cl k').activeFold;
      let c' := v'.core k' n';
      let w' := c'.word f';
      v'.roundOpen k' = true ∧
        c'.ready f' v'.clock = true ∧ dpeAttempt k' v' c' f' w' v'.clock = Attempt.fired (fire (dpeAttempt 0) (withCore cD) 0)) := by
  decide +kernel

theorem test_premises_engines_send_their_token :
    (let k' := ↑id5.k;
      let n' := coreNum id5;
      let v' := opportunityOf id5 1 (withCore cL);
      let f' := (v'.cl k').activeFold;
      let c' := v'.core k' n';
      let w' := c'.word f';
      v'.roundOpen k' = true ∧
        c'.ready f' v'.clock = true ∧
          leAttempt k' v' c' f' w' v'.clock = Attempt.fired (fire (leAttempt 0) (withCore cL) 1) ∧
            dCode (cwLeDest w') = 4 ∧ cwCtEmit w' = 0 ∧ cwHalf w' = true) ∧
    (let k' := ↑id5.k;
      let n' := coreNum id5;
      let v' := opportunityOf id5 2 (withCore (cS 1 true));
      let f' := (v'.cl k').activeFold;
      let c' := v'.core k' n';
      let w' := c'.word f';
      v'.roundOpen k' = true ∧
        c'.ready f' v'.clock = true ∧
          ceAttempt 1 k' v' c' f' w' v'.clock = Attempt.fired (fire (ceAttempt 1 0) (withCore (cS 1 true)) 2) ∧
            ceReads (c'.asOf v'.clock) f' w' v'.clock = some (rd 1 true) ∧
              c'.firedIn 1 v'.clock = false ∧ dCode (rd 1 true).dest = 4 ∧ cwCtEmit w' = 0) := by
  refine ⟨?_, ?_⟩ <;> decide +kernel

theorem test_premises_tokens_land_and_strays_drop :
    (let k' := ↑id5.k;
      let n' := coreNum id5;
      (ld (Target.store 7)).emissions = ((withCore (ld (Target.store 7))).core k' n').emissions ∧
        earliest (ld (Target.store 7)).emissions =
          some
            (1,
              { due := 320, target := Target.store 7, tok := { payload := 9#128, fold := 0#3, spare := 0#2 : Token }, fired := 340 :
                Landing })) ∧
    (let k' := ↑id5.k;
      let n' := coreNum id5;
      (ld (Target.queue 6)).landing = ((withCore (ld (Target.queue 6))).core k' n').landing ∧
        earliest (ld (Target.queue 6)).landing =
          some
            (1,
              { due := 350, target := Target.queue 6, tok := { payload := 9#128, fold := 0#3, poison := true, spare := 0#2 : Token },
                fired := 340 : Landing })) ∧
    (let k' := ↑id5.k;
      let n' := coreNum id5;
      let f' := ((withCore cStr).cl k').activeFold;
      let c' := ((withCore cStr).core k' n').settleSlack (withCore cStr).clock;
      (withCore cStr).roundOpen k' = true ∧
        c'.ready f' (withCore cStr).clock = true ∧
          c'.strayQueue Engine.ce f' (c'.word f') (withCore cStr).clock = some 1 ∧ c'.hasPath 1 f' = false) := by
  refine ⟨?_, ?_, ?_⟩ <;> decide +kernel

end T06

namespace T06b

def cw (l : List (Nat × Nat)) : BitVec 512 := BitVec.ofNat 512 (l.foldl (fun n p => n + p.2 * 2 ^ p.1) (2^63))
def qe (p : Nat) (c : Bool := false) (e : Bool := false) : QueueEntry := ⟨{ payload := BitVec.ofNat 128 p, ctrl := c, endBit := e }, 12, 0⟩
def withCore (c : CoreState) (s : State := busy) : State := s.modCore 0 5 fun _ => c
def id5 : CoreId := ⟨0, 0, 5⟩
def rt (n : Nat) (loc : Bool) (dr inp lg ph : Nat) : Nat × Nat := (448 + 16 * n, 1 + (if loc then 2 else 0) + dr + inp * 64 + lg * 512 + ph * 4096)
def wR : BitVec 512 := cw [rt 0 false 32 4 0 7, rt 1 true 0 5 1 2, (384, 6), (387, 6), (30, 3)]
def cR : CoreState := { slots := [(0, wR)], launch := [(0, [⟨{payload := 3}, 0, 0, 350⟩, ⟨{payload := 4}, 0, 0, 351⟩]), (1, [⟨{payload := 8}, 0, 1, 10⟩])], credit := [(0, { count := 4 }), (1, { count := 3 })], pendCredit := [(48, { count := 2, ready := 351 })] }
def frz := (withCore cR).modCl 0 fun c => { c with frozen := true }
def id37 : CoreId := ⟨0, 1, 5⟩
def wH : BitVec 512 := cw [rt 0 true 0 0 2 1, (384, 6), (30, 3)]
def sH (due : Nat) : State := { (busy.modCore 0 37 fun _ => { slots := [(0, wH)] }) with flights := [⟨37, .north, due, 340, {payload := 7}⟩, ⟨37, .north, due+9, 340, {payload := 8}⟩] }
def wF : BitVec 512 := cw [rt 2 true 0 1 0 7, (384, 6), (387, 6), (390, 6), (30, 3)]
def cF : CoreState := { slots := [(0, wF)], pendCredit := [(48, { count := 2, ready := 351 })] }
def sL : State := { (busy.modCore 0 37 fun _ => { cR with slots := [(0, wR)] }) with lanes := [⟨37, .north, 0, 7, 352⟩, ⟨37, .north, 0, 7, 368⟩] }
def wSl : BitVec 512 := cw [(405, 1), (402, 6), (396, 2)]
def toks (n : Nat) : List Token := (List.range n).map fun i => { payload := BitVec.ofNat 128 i }
def cSl (n u : Nat) (r : List Token) : CoreState := { slots := [(0, wSl)], slack := [(0, { write := toks n, used := u, head := 3, read := r })] }
def hs (s : State) : State := s.modCl 0 fun c => { c with handles := [(2, { base := 0x80000000#32 + 5 * 16384 + 100 })] }
def later (n : Nat) (s : State) : State := s.advance n
def wAsked : State := later 40 (result (.slackRowWrite id5 0) (hs (withCore (cSl 33 1 []))))
def rAsked : State := later 40 (result (.slackRowRead id5 0) (hs (withCore (cSl 3 2 []))))
def idle (ab : Nat) (s : State := withCore { cR with queues := [(6, [qe 1, qe 2, qe 3])] }) : State := { s with clusters := s.clusters.map fun c => (c.1, { c.2 with activeBeat := ab }) }

theorem test_premises_launches_and_hops :
    (let k' := ↑id5.k;
      let n' := coreNum id5;
      SMap.getD ((withCore cR).core k' n').launch ↑0 [] =
          [{ tok := { payload := 3#128, fold := 0#3, spare := 0#2 : Token }, slot := 0, route := 0, entered := 350 : LaunchEntry },
            { tok := { payload := 4#128, fold := 0#3, spare := 0#2 : Token }, slot := 0, route := 0, entered := 351 : LaunchEntry }] ∧
        let v' :=
          (withCore cR).reachClock
            (max
              { tok := { payload := 3#128, fold := 0#3, spare := 0#2 : Token }, slot := 0, route := 0, entered := 350 :
                  LaunchEntry }.entered
              (SMap.getD ((withCore cR).core k' n').nextLaunch (↑0) 0));
        let w' :=
          ((withCore cR).core k' n').word
            { tok := { payload := 3#128, fold := 0#3, spare := 0#2 : Token }, slot := 0, route := 0, entered := 350 :
                LaunchEntry }.slot;
        let u' :=
          v'.advance
            (phaseWait w'
              { tok := { payload := 3#128, fold := 0#3, spare := 0#2 : Token }, slot := 0, route := 0, entered := 350 :
                  LaunchEntry }.route
              v'.now);
        u'.portOpen k' = true ∧ u'.quiet k' = false) ∧
    (let k' := ↑id5.k;
      let n' := coreNum id5;
      SMap.getD (frz.core k' n').launch ↑1 [] =
          [{ tok := { payload := 8#128, fold := 0#3, spare := 0#2 : Token }, slot := 0, route := 1, entered := 10 : LaunchEntry }] ∧
        let v' :=
          frz.reachClock
            (max
              { tok := { payload := 8#128, fold := 0#3, spare := 0#2 : Token }, slot := 0, route := 1, entered := 10 :
                  LaunchEntry }.entered
              (SMap.getD (frz.core k' n').nextLaunch (↑1) 0));
        let w' :=
          (frz.core k' n').word
            { tok := { payload := 8#128, fold := 0#3, spare := 0#2 : Token }, slot := 0, route := 1, entered := 10 : LaunchEntry }.slot;
        let u' :=
          v'.advance
            (phaseWait w'
              { tok := { payload := 8#128, fold := 0#3, spare := 0#2 : Token }, slot := 0, route := 1, entered := 10 :
                  LaunchEntry }.route
              v'.now);
        u'.portOpen k' = false) ∧
    (let k' := ↑id37.k;
      let n' := coreNum id37;
      nextFlight (sH 347).flights (1024 * k' + n') Dir.north =
        some
          { dest := 37, dir := Dir.north, due := 347, launched := 340, tok := { payload := 7#128, fold := 0#3, spare := 0#2 : Token } :
            Flight }) := by
  refine ⟨?_, ?_, ?_⟩ <;> decide +kernel

theorem test_premises_credits_and_slack_rows_move :
    (let k' := ↑id5.k;
      let n' := coreNum id5;
      let c' := (withCore cR).core k' n';
      let w' := c'.word ↑0;
      let p' := SMap.getD c'.pendCredit (pairKey ↑6 ↑0) { : PendingCredit };
      let u' := (withCore cR).reachClock (max p'.ready ((withCore cR).cl k').bubbleEnd);
      routeFeeding w' ↑6 = some 1 ∧
        4 ≤ rtIn w' 1 ∧
          ((withCore cR).branches k' n' (↑0) 1).length ≤ 1 ∧
            p'.count ≠ 0 ∧
              ((withCore cR).cl k').activeFold = ↑0 ∧ (SMap.getD c'.credit (4 * ↑0 + 1) { : CreditCount }).last ≠ u'.clock + 1) ∧
    (let k' := ↑id5.k;
      let n' := coreNum id5;
      let c' := (withCore cF).core k' n';
      let w' := c'.word ↑0;
      let p' := SMap.getD c'.pendCredit (pairKey ↑6 ↑0) { : PendingCredit };
      let u' := (withCore cF).reachClock (max p'.ready ((withCore cF).cl k').bubbleEnd);
      let v' := u'.advance (creditWait (rtCredits w' 2) u'.now);
      let d' := dirOf (rtIn w' 2);
      routeFeeding w' ↑6 = some 2 ∧
        rtIn w' 2 < 4 ∧
          (v'.branches k' n' (↑0) 2).length ≤ 1 ∧
            rtCredits w' 2 v'.phase = true ∧
              p'.count ≠ 0 ∧
                ((withCore cF).cl k').activeFold = ↑0 ∧
                  (withCore cF).lanes = [] ∧
                    v'.heldBack k' n' d' = false ∧ v'.farEnd k' n' d' = some { dest := 6, dir := Dir.west, rounds := 0 : FarEnd }) ∧
    (let k' := ↑id37.k;
      let n' := coreNum id37;
      let c' := sL.core k' n';
      let w' := c'.word ↑0;
      let u' := sL.reachClock { dest := 37, dir := Dir.north, fold := 0, phase := 7, due := 352 : LaneCredit }.due;
      nextCredit sL.lanes (1024 * k' + n') (some Dir.north) ↑0 =
          some { dest := 37, dir := Dir.north, fold := 0, phase := 7, due := 352 : LaneCredit } ∧
        u'.acrossCluster k' n' Dir.north = some k' ∧
          (sL.cl k').lacing.active = [] ∧
            firstSome
                  (fun r =>
                    rtValid w' r && rtDrives w' r (dirNum Dir.north) &&
                      rtHolds w' r { dest := 37, dir := Dir.north, fold := 0, phase := 7, due := 352 : LaneCredit }.phase)
                  (upto 4) =
                some 0 ∧
              4 ≤ rtIn w' 0 ∧
                sL.branches k' n' (↑0) 0 = [dirNum Dir.north] ∧ (SMap.getD c'.credit (4 * ↑0 + 0) { : CreditCount }).last ≠ u'.clock + 1) ∧
    ((((hs (withCore (cSl 30 4 []))).core (↑id5.k) (coreNum id5)).path ↑0).writing = none ∧
        30 ≤ (((hs (withCore (cSl 30 4 []))).core (↑id5.k) (coreNum id5)).path ↑0).write.length ∧
          (((hs (withCore (cSl 30 4 []))).core (↑id5.k) (coreNum id5)).path ↑0).used <
              (((hs (withCore (cSl 30 4 []))).cl ↑id5.k).handle
                  (cwSlackHandle (((hs (withCore (cSl 30 4 []))).core (↑id5.k) (coreNum id5)).word ↑0))).length ∧
            ((hs (withCore (cSl 30 4 []))).cl ↑id5.k).frozen = false) ∧
    ((((hs (withCore (cSl 3 1 []))).core (↑id5.k) (coreNum id5)).path ↑0).reading = none ∧
        (((hs (withCore (cSl 3 1 []))).core (↑id5.k) (coreNum id5)).path ↑0).read = [] ∧
          (((hs (withCore (cSl 3 1 []))).core (↑id5.k) (coreNum id5)).path ↑0).used ≠ 0 ∧
            (((hs (withCore (cSl 3 1 []))).cl ↑id5.k).handle
                    (cwSlackHandle (((hs (withCore (cSl 3 1 []))).core (↑id5.k) (coreNum id5)).word ↑0))).length ≠
                0 ∧
              ((hs (withCore (cSl 3 1 []))).cl ↑id5.k).frozen = false) ∧
    (((wAsked.core (↑id5.k) (coreNum id5)).path ↑0).writing = some 1 ∧
        ((wAsked.settleArb ↑id5.k).cl ↑id5.k).arb.movedAt 11 1 = some 346) ∧
    (((rAsked.core (↑id5.k) (coreNum id5)).path ↑0).reading = some 1 ∧
        ((rAsked.settleArb ↑id5.k).cl ↑id5.k).arb.movedAt 11 1 = some 346) := by
  refine ⟨?_, ?_, ?_, ?_, ?_, ?_, ?_⟩ <;> decide +kernel

theorem test_premises_idle_regions_freeze :
    (let g' := (idle 10).region ↑3;
      let last' := List.foldl (fun m k => max m ((idle 10).cl k).activeBeat) (task.startBeats + 1) g'.clusters;
      g'.state = RegionState.running ∧
        g'.task = some task ∧
          g'.clusters.any (idle 10).watchOff = false ∧
            firstSome (fun k => !((idle 10).cl k).shares.fst.isEmpty) g'.clusters = some 0 ∧
              (idle 10).inOrder ((idle 10).beat + BitVec.ofNat 48 (last' + 64 - (idle 10).beats)) 61 = true) := by
  decide +kernel

end T06b

namespace T07

def cw (l : List (Nat × Nat)) : BitVec 512 := BitVec.ofNat 512 (l.foldl (fun n p => n + p.2 * 2 ^ p.1) (2^63))
def bits (l : List (Nat × Nat)) (n : Nat) : BitVec n := BitVec.ofNat n (l.foldl (fun n p => n + p.2 * 2 ^ p.1) 0)
def gdl : List (Nat × Nat) := [(63,1),(60,0),(44,0),(24,3),(12,2),(0,1),(122,2),(109,4),(96,20),(90,3),(77,0),(64,8),(174,0),(136, 4*64+6*8)]
def gd : BitVec 512 := bits gdl 512
def row (n : Nat) : Row := { data := BitVec.ofNat 4096 (0x3f803f804000400040804080 * (n * 2^128 + 1)), poison := 1 }
def sG (g : BitVec 512) (u : GangUnit) (s : State := busy) : State := s.modCl 0 fun c => { c with gangDesc := [(0, g)], gang := u, rows := (List.range 60).map fun n => (n, row n), handles := [(2, { base := 0x80000000#32 + 50 * 16384 + 0 }), (3, { base := 0x80000000#32 + 30 * 16384 + 30 })] }
def gdGa : BitVec 512 := bits (gdl ++ [(149, 1), (146, 3)]) 512
def ks (b st l : Nat) : KStep := ⟨b, st, List.replicate 16 ⟨0x3f803f80, false⟩, List.replicate 16 ⟨0x40004000, false⟩, l⟩
def sP : State := (sG gd { idle := [ks 0 1 1, ks 0 2 2], folds := [(0, {step := 1 })] }).modArb 0 fun a => { a with now := 345, past := [(0, { count := 2, since := 300, ends := 320 })] }
def dr (g : BitVec 512) : State := (sG g { drain := some (0, 1, 360) }).modCore 0 33 fun c => { c with bank := [(0, ⟨7, true⟩), (5, ⟨9, false⟩)] }
def gdH : BitVec 512 := bits (gdl ++ [(174, 1), (163, 3), (150, 2), (184, 10), (176, 9)]) 512
def runOf (s : State) : DrainRun := ((s.cl 0).gang.run).getD ⟨0, 0, 0, [], 0, 0⟩
def eT : State := result (.gangDrain 0) (dr gd)
def eH : State := (result (.gangDrain 0) (dr gdH)).advance 300
def sDn : State := (sG gd { doneDue := [(0, 1, 360), (0, 2, 400)] }).modCore 0 0 fun c => { c with slots := [(0, cw [(30, 3)])] }
def xDn : CoreState := match ((sDn.reachClock 360).core 0 0).send (((sDn.reachClock 360).core 0 0).word 0) (gdDoneDest gd.toNat) 360 361 false [{ payload := controlPayload 1 3 false true true, ctrl := true, endBit := true }] with | .ok x => x | _ => {}
def rq (f n : Nat) (w : Bool) : ArbRequest := ⟨{ spans := [(f, n)], write := w, ready := 340 }, 340, false, 5⟩
def arb (a : Arbiter) (s : State := busy) : State := s.modCl 0 fun c => { c with arb := { a with now := 345 } }
def ob (key e : Nat) : ArbPort := { owner := some key, start := 340, ends := e, counted := 344 }
def a1 : Arbiter := { requests := [(5, rq 0 64 false), (4, rq 100 5 false), (7, rq 200 3 false)], ports := [(0, ob 2 400), (1, { normal := 5 })] }
def aH : Arbiter := { requests := [(4, { rq 100 5 false with held := true })], tableW := [⟨3, [(90, 20)], some 350, 2⟩], ports := [(0, ob 5 400), (1, ob 6 400)], serial := 6 }

theorem test_premises_gangs_feed_drain_and_signal :
    (gdGated (((sG gd { : GangUnit }).cl ↑0).gd ((sG gd { : GangUnit }).cl ↑0).activeFold)
          (((sG gd { : GangUnit }).cl ↑0).gangFold ((sG gd { : GangUnit }).cl ↑0).activeFold).feedStep =
        false) ∧
    (gdGated (((sG gdGa { : GangUnit }).cl ↑0).gd ((sG gdGa { : GangUnit }).cl ↑0).activeFold)
            (((sG gdGa { : GangUnit }).cl ↑0).gangFold ((sG gdGa { : GangUnit }).cl ↑0).activeFold).feedStep =
          true ∧
        (((sG gdGa { : GangUnit }).cl ↑0).gangFold ((sG gdGa { : GangUnit }).cl ↑0).activeFold).gated.contains
              ((((sG gdGa { : GangUnit }).cl ↑0).gangFold ((sG gdGa { : GangUnit }).cl ↑0).activeFold).feedBlock,
                (((sG gdGa { : GangUnit }).cl ↑0).gangFold ((sG gdGa { : GangUnit }).cl ↑0).activeFold).feedStep) =
            false ∧
          ((sG gdGa { : GangUnit }).core (↑0)
                  (gdOrigin (((sG gdGa { : GangUnit }).cl ↑0).gd ((sG gdGa { : GangUnit }).cl ↑0).activeFold))).head
              (gdGateQ (((sG gdGa { : GangUnit }).cl ↑0).gd ((sG gdGa { : GangUnit }).cl ↑0).activeFold))
              ((sG gdGa { : GangUnit }).cl ↑0).activeFold (sG gdGa { : GangUnit }).clock =
            none) ∧
    (let u' := ((sP.reachClock (max sP.clock (sP.cl ↑0).gang.nextRound)).reachBoundary 16).settleArb ↑0;
      let f' := (sP.cl ↑0).activeFold;
      let w' := (sP.cl ↑0).gd f';
      let g' := (sP.cl ↑0).gangFold f';
      u'.gangOpen ↑0 = true ∧
        u'.suppressed ↑0 = false ∧
          g'.block < gdBlocks w' ∧
            (sP.cl ↑0).gang.idle = [ks 0 1 1, ks 0 2 2] ∧
              (u'.cl ↑0).hasLanded (ks 0 1 1) u'.clock = true ∧
                (ks 0 1 1).block = g'.block ∧
                  (ks 0 1 1).step = g'.step ∧
                    ((gdMembers w').all fun m => (sP.core (↑0) m.fst).gates == 0) = true ∧
                      (ks 0 1 1).step + 1 < gdKs w' ∧ (List.map (fun x => x.fst) (gdMembers w')).Nodup) ∧
    (((dr gd).cl ↑0).gang.run = none ∧
        ((dr gd).cl ↑0).gang.drain = some (0, 1, 360) ∧
          let c' := (dr gd).cl ↑0;
          let w' := c'.gd 0;
          let tile' := SMap.getD (SMap.getD c'.fes (gdDrainFe w') { : FinishingEngine }).tiles (gdTile w' 1) { : Tile };
          c'.frozen = false ∧
            c'.gang.doneDue = [] ∧ (gdDrainMode w' = 0 → tile'.state = TileState.free) ∧ (gdShape w' 1).snd ≤ 128 ∧ gdDrainMode w' = 0) ∧
    ((eT.cl ↑0).gang.run = some (runOf eT) ∧
        (eT.cl ↑0).frozen = false ∧
          ((eT.settleArb ↑0).cl ↑0).drainF = some 376 ∧
            let c' := eT.cl ↑0;
            let w' := c'.gd (runOf eT).fold;
            gdDrainMode w' = 0 ∧ dCode (gdDoneDest w') ≠ 7) ∧
    ((eH.cl ↑0).gang.run = some (runOf eH) ∧
        (eH.cl ↑0).frozen = false ∧
          ((eH.settleArb ↑0).cl ↑0).drainF = some 376 ∧
            let c' := eH.cl ↑0;
            let w' := c'.gd (runOf eH).fold;
            gdDrainMode w' ≠ 0 ∧ (List.map (fun x => x.fst) (runOf eH).rows).Nodup ∧ dCode (gdDoneDest w') ≠ 7) ∧
    ((sDn.cl ↑0).gang.doneDue = [(0, 1, 360), (0, 2, 400)] ∧
        let u' := sDn.reachClock 360;
        let c' := sDn.cl ↑0;
        let w' := c'.gd 0;
        let last' := 1 + 1 == gdBlocks w';
        (c'.core (gdOrigin w')).send ((c'.core (gdOrigin w')).word 0) (gdDoneDest w') u'.clock (u'.clock + 1) false
              [{ payload := controlPayload 1 3 (1 == 0) last' last', fold := 0#3, ctrl := true, endBit := last', spare := 0#2 :
                  Token }] =
            Sent.ok xDn ∧
          c'.frozen = false) := by
  refine ⟨?_, ?_, ?_, ?_, ?_, ?_, ?_⟩ <;> decide +kernel

theorem test_premises_ports_grant_in_turn :
    (let s'' := (arb a1).settleArb ↑0;
      let u' := (s''.reachClock ((s''.cl ↑0).arb.port ↑1).ends).settleArb ↑0;
      let a' := (u'.cl ↑0).arb;
      let cs' := u'.candidates (↑0) (↑1) u'.clock;
      let hi' := List.filter (fun r => bitAt (u'.arbReq (↑0) (arbId r)) 16) cs';
      a'.now ≤ u'.clock ∧
        (a'.port ↑1).ends ≤ u'.clock ∧
          (a'.port ↑1).cut = false ∧
            u'.clock < (a'.port (1 - ↑1)).ends ∧
              a'.tableW = [] ∧
                a'.tableN = [] ∧
                  a'.waiting u'.clock = [] ∧
                    (List.all a'.requests fun y => !y.snd.held) = true ∧
                      (if hi'.isEmpty = true then afterPointer (a'.port ↑1).normal cs' else afterPointer (a'.port ↑1).high hi') =
                          some 4 ∧
                        SMap.get? a'.requests 4 = some (rq 100 5 false)) ∧
    (let s'' := (arb aH).settleArb ↑0;
      let meets' := fun w =>
        decide
            (w.serial <
              (let __src := rq 100 5 false;
                { req := __src.req, since := __src.since, held := true, serial := __src.serial : ArbRequest }).serial) &&
          spansMeet w.spans
            (let __src := rq 100 5 false;
                { req := __src.req, since := __src.since, held := true, serial := __src.serial : ArbRequest }).req.spans;
      let laps' := List.filter meets' (s''.cl ↑0).arb.ranges;
      let u' := (s''.reachClock (List.foldl (fun t w => max t (w.leaves.getD 0 + 1)) 0 laps')).settleArb ↑0;
      let a' := (u'.cl ↑0).arb;
      SMap.get? (s''.cl ↑0).arb.requests ↑4 =
          some
            (let __src := rq 100 5 false;
            { req := __src.req, since := __src.since, held := true, serial := __src.serial : ArbRequest }) ∧
        (let __src := rq 100 5 false;
              { req := __src.req, since := __src.since, held := true, serial := __src.serial : ArbRequest }).held =
            true ∧
          (laps'.all fun w => w.leaves.isSome) = true ∧
            a'.now ≤ u'.clock ∧
              SMap.get? a'.requests ↑4 =
                  some
                    (let __src := rq 100 5 false;
                    { req := __src.req, since := __src.since, held := true, serial := __src.serial : ArbRequest }) ∧
                ((List.filter meets' a'.ranges).all fun w => Option.any (fun l => decide (l < u'.clock)) w.leaves) = true ∧
                  (∀ (p : Fin 2), u'.clock < (a'.port ↑p).ends) ∧ ↑4 ≠ 14) := by
  refine ⟨?_, ?_⟩ <;> decide +kernel

end T07

namespace T07b

def cw (l : List (Nat × Nat)) : BitVec 512 := BitVec.ofNat 512 (l.foldl (fun n p => n + p.2 * 2 ^ p.1) (2^63))
def bits (l : List (Nat × Nat)) (n : Nat) : BitVec n := BitVec.ofNat n (l.foldl (fun n p => n + p.2 * 2 ^ p.1) 0)
def gdl : List (Nat × Nat) := [(63,1),(60,0),(44,0),(24,3),(12,2),(0,1),(122,2),(109,4),(96,20),(90,3),(77,0),(64,8),(174,0),(136, 4*64+6*8)]
def gd : BitVec 512 := bits gdl 512
def row (n : Nat) : Row := { data := BitVec.ofNat 4096 (0x3f803f804000400040804080 * (n * 2^128 + 1)), poison := 1 }
def sG (g : BitVec 512) (u : GangUnit) (s : State := busy) : State := s.modCl 0 fun c => { c with gangDesc := [(0, g)], gang := u, rows := (List.range 60).map fun n => (n, row n), handles := [(2, { base := 0x80000000#32 + 50 * 16384 + 0 }), (3, { base := 0x80000000#32 + 30 * 16384 + 30 })] }
def dr (g : BitVec 512) : State := (sG g { drain := some (0, 1, 360) }).modCore 0 33 fun c => { c with bank := [(0, ⟨7, true⟩), (5, ⟨9, false⟩)] }
def hw (run : Bool) : State := if run then busy else { busy with regions := [] }
def fcw (op dst dr n src sr : Nat) (pat : Nat := 0x12345678) : Nat := op * 2^124 + dst * 2^117 + dr * 2^104 + n * 2^90 + src * 2^84 + sr * 2^71 + pat
def post (w : Nat) (q : Nat) : State := (busy.modPage (pgRowmem 0) fun p => { p with windows := [(3, { w0 := BitVec.ofNat 32 w, w1 := BitVec.ofNat 32 (w / 2^32), w2 := BitVec.ofNat 32 (w / 2^64), result := 7 })] }).modCl 0 fun c => { c with fillCopy := List.replicate q { bits := 5 } }
def fcs (d : PendingDesc) : State := (sG gd {}).modCl 0 fun c => { c with fillCopy := [d, {bits := 5}] }
def D (w : Nat) (p : Option Nat) (sg : Option Nat := none) : PendingDesc := { bits := BitVec.ofNat 2048 w, poster := p, signal := sg }
def df := D (fcw 1 3 4 5 0 0) (some 3)
def db := D (fcw 2 3 27 5 2 6) (some 3)
def pk (ctx addr n : Nat) : Packet := { opcode := 2, ctx := BitVec.ofNat 6 ctx, addr := BitVec.ofNat 48 addr, src := epCluster 8 3, dest := epCluster 0 4, tag := 77, data := (List.range n).map fun i => BitVec.ofNat 256 (i + 9), len := BitVec.ofNat 7 n }
def rmt : State := (sG gd {}).modCl 0 fun c => { c with handles := [(2, { base := 0xA0000000#32 + 20 * 16384 + 10 })] }
def ad (k r b : Nat) : Nat := 0x40000000000 + k * 2^22 + r * 512 + b
def ntf : State := (sG gd {}).modCl 0 fun c => { c with handles := [(2, { base := 0x80000000#32 + 20 * 16384 + 10, note := BitVec.ofNat 32 (1 * 2^6 + 6 * 8 + 2 * 65536 + 2^11) })], notifiers := [(2, { credit := 2, pending := [(2, true), (4, false)], sent := 3 })], cores := SMap.put c.cores 33 { slots := [(0, cw [(30, 3)])] } }
def rng (r : Ring) (w : List RingWaiter := []) : State := (sG gd {}).modCl 0 fun c => { c with handles := [(2, { base := 0xC0000000#32 + 20 * 16384 + 10, ring := 3 })], rings := [(2, r)], ringWaiters := w }
def rp (n : Nat) : Packet := { pk 5 (ad 0 10 0) 0 with opcode := 0x10, rsvRows := BitVec.ofNat 14 n }
def R1 : Ring := { head := 5, tail := 15, used := 10 }
def W : RingWaiter := ⟨2, rp 20, 300⟩
def sr : State := busy.modCl 0 fun c => { c with stream := { c.stream with slots := [(1, { desc := some {bits := 0}, post := some (rp 4) })] } }

theorem test_premises_handles_and_posts_are_taken :
    ((hw true).pageOpen 3 (pgHandle ↑0) = true ∧ (hw true).isRunning ↑0 = true) ∧
    ((hw false).pageOpen 3 (pgHandle ↑0) = true ∧
        let len' := field (4026621952#32).toNat 27 14;
        let base' := field (4026621952#32).toNat 12 0;
        let laps' := ↑0 = 0 ∧ (8192 < len' ∨ 8192 < base' + len');
        (hw false).isRunning ↑0 = false ∧ ¬laps') ∧
    ((hw false).pageOpen 3 (pgHandle ↑0) = true ∧
        let len' := field (2281701377#32).toNat 27 14;
        let base' := field (2281701377#32).toNat 12 0;
        let laps' := ↑0 = 0 ∧ (8192 < len' ∨ 8192 < base' + len');
        (hw false).isRunning ↑0 = false ∧ laps') ∧
    ((post (fcw 1 3 4 5 0 0) 7).pageOpen 3 (pgRowmem ↑0) = true ∧
        let n' := pgRowmem ↑0;
        let p' := SMap.getD ((post (fcw 1 3 4 5 0 0) 7).page n').windows ↑3 { w0 := 0#32, w1 := 0#32, w2 := 0#32 : PostWindow };
        let w' :=
          BitVec.toNat p'.w0 + 2 ^ 32 * BitVec.toNat p'.w1 + 2 ^ 64 * BitVec.toNat p'.w2 +
            2 ^ 96 * (BitVec.ofNat 32 (fcw 1 3 4 5 0 0 / 2 ^ 96)).toNat;
        let full' := 8 ≤ ((post (fcw 1 3 4 5 0 0) 7).cl ↑0).fillCopy.length;
        fcReserved w' = false ∧ ¬full') ∧
    ((post (fcw 1 3 4 5 0 0) 8).pageOpen 3 (pgRowmem ↑0) = true ∧
        let n' := pgRowmem ↑0;
        let p' := SMap.getD ((post (fcw 1 3 4 5 0 0) 8).page n').windows ↑3 { w0 := 0#32, w1 := 0#32, w2 := 0#32 : PostWindow };
        let w' :=
          BitVec.toNat p'.w0 + 2 ^ 32 * BitVec.toNat p'.w1 + 2 ^ 64 * BitVec.toNat p'.w2 +
            2 ^ 96 * (BitVec.ofNat 32 (fcw 1 3 4 5 0 0 / 2 ^ 96)).toNat;
        let full' := 8 ≤ ((post (fcw 1 3 4 5 0 0) 8).cl ↑0).fillCopy.length;
        fcReserved w' = false ∧ full') ∧
    ((post (fcw 3 3 4 5 0 0) 3).pageOpen 3 (pgRowmem ↑0) = true ∧
        let n' := pgRowmem ↑0;
        let p' := SMap.getD ((post (fcw 3 3 4 5 0 0) 3).page n').windows ↑3 { w0 := 0#32, w1 := 0#32, w2 := 0#32 : PostWindow };
        let w' :=
          BitVec.toNat p'.w0 + 2 ^ 32 * BitVec.toNat p'.w1 + 2 ^ 64 * BitVec.toNat p'.w2 +
            2 ^ 96 * (BitVec.ofNat 32 (fcw 3 3 4 5 0 0 / 2 ^ 96)).toNat;
        fcReserved w' = true) := by
  refine ⟨?_, ?_, ?_, ?_, ?_, ?_⟩ <;> decide +kernel

theorem test_premises_fill_and_copy_write_their_rows :
    ((fcs df).fcHead (↑0) 1 = some (df, [{ bits := 5#2048 : PendingDesc }]) ∧
        let c' := (fcs df).cl ↑0;
        let w' := df.bits.toNat;
        fcReserved w' = false ∧ c'.fcOk w' = true) ∧
    ((fcs db).fcHead (↑0) 2 = some (db, [{ bits := 5#2048 : PendingDesc }]) ∧
        let c' := (fcs db).cl ↑0;
        let w' := db.bits.toNat;
        fcReserved w' = false ∧ c'.fcOk w' = false) := by
  refine ⟨?_, ?_⟩ <;> decide +kernel

theorem test_premises_remote_rows_are_read_and_written :
    (placeOf (pk 5 (ad 0 12 0) 32).addr.toNat = Place.rowWindow 0 12 0) ∧
    (placeOf (pk 4 (ad 0 12 0) 32).addr.toNat = Place.rowWindow 0 12 0 ∧
        let n' := (pk 4 (ad 0 12 0) 32).data.length / 16;
        let whole' :=
          0 = 0 ∧
            (pk 4 (ad 0 12 0) 32).data.length % 16 = 0 ∧
              1 ≤ n' ∧ n' ≤ 4 ∧ (pk 4 (ad 0 12 0) 32).mask = none ∧ rmt.ownerOf 0 = some (pk 4 (ad 0 12 0) 32).ctx.toNat;
        ¬whole') ∧
    (placeOf (pk 5 (ad 0 29 0) 32).addr.toNat = Place.rowWindow 0 29 0 ∧
        let n' := (pk 5 (ad 0 29 0) 32).len.toNat / 16;
        (rmt.cl 0).remoteHandle 29 n' = none) := by
  refine ⟨?_, ?_, ?_⟩ <;> decide +kernel

theorem test_premises_notifications_and_rings :
    (let c' := ntf.cl ↑0;
      let hd' := c'.handle ↑2;
      let nt' := SMap.getD c'.notifiers ↑2 { : Notifier };
      let core' := (ntf.core (↑0) hd'.noteCore).settleSlack ntf.clock;
      nt'.pending = [(2, true), (4, false)] ∧
        nt'.credit ≠ 0 ∧
          hd'.valid = true ∧
            cwValid (core'.word hd'.noteFold) = true ∧
              SMap.get? core'.closed (pairKey hd'.noteQueue hd'.noteFold) = none ∧
                core'.hasPath hd'.noteQueue hd'.noteFold = false ∧
                  core'.held hd'.noteQueue hd'.noteFold < cwCred (core'.word hd'.noteFold) hd'.noteQueue) ∧
    (placeOf (rp 4).addr.toNat = Place.rowWindow 0 10 0 ∧
        ((rng R1).cl 0).ringHandle 10 = some 2 ∧
          (rng R1).ownerOf 0 = some (rp 4).ctx.toNat ∧
            let size' := (((rng R1).cl 0).handle 2).length;
            let n' := (rp 4).rsvRows.toNat;
            n' ≠ 0 ∧ n' ≤ size') ∧
    (placeOf (rp 0).addr.toNat = Place.rowWindow 0 10 0 ∧
        ((rng R1).cl 0).ringHandle 10 = some 2 ∧
          (rng R1).ownerOf 0 = some (rp 0).ctx.toNat ∧
            let n' := (rp 0).rsvRows.toNat;
            n' = 0) ∧
    ((rng R1).pageOpen 3 (pgHandle ↑0) = true ∧
        let ring' := SMap.getD ((rng R1).cl ↑0).rings ↑2 { : Ring };
        let size' := (((rng R1).cl ↑0).handle ↑2).length;
        ring'.release size' (11#14).toNat = none) ∧
    (((rng R1 [W]).cl ↑0).ringWaiters = [W] ∧ W.handle = ↑2) ∧
    (List.findSome?
          (fun x =>
            x.snd.post.bind fun q =>
              if
                  q.tag =
                    (let __src := rp 4;
                      { opcode := 18#8, prio := __src.prio, ctx := __src.ctx, dest := __src.dest, src := __src.src, tag := __src.tag,
                        dmod := __src.dmod, smod := __src.smod, hint := __src.hint, addr := __src.addr, len := __src.len,
                        status := __src.status, rtag := __src.rtag, count := __src.count, sop := __src.sop, stype := __src.stype,
                        rsvRows := __src.rsvRows, placeRow := __src.placeRow, wordPoison := __src.wordPoison, mask := __src.mask,
                        data := __src.data, badHeader := __src.badHeader : Packet }).tag then
                some q
              else none)
          (sr.cl
                (epNumber
                  (let __src := rp 4;
                    { opcode := 18#8, prio := __src.prio, ctx := __src.ctx, dest := __src.dest, src := __src.src, tag := __src.tag,
                      dmod := __src.dmod, smod := __src.smod, hint := __src.hint, addr := __src.addr, len := __src.len,
                      status := __src.status, rtag := __src.rtag, count := __src.count, sop := __src.sop, stype := __src.stype,
                      rsvRows := __src.rsvRows, placeRow := __src.placeRow, wordPoison := __src.wordPoison, mask := __src.mask,
                      data := __src.data, badHeader := __src.badHeader : Packet }).dest)).stream.slots =
        some (rp 4)) := by
  refine ⟨?_, ?_, ?_, ?_, ?_, ?_⟩ <;> decide +kernel

end T07b

namespace T08

def lk (l : Nat) (x : Link) (s : State := busy) : State := { s with harness := { s.harness with links := SMap.put s.harness.links l x } }
def en (l : Nat) (on : Bool) (s : State) : State := s.setLinkEn l on
def T (l : Nat) := pgTrunk (l / 8)
def chO : Channel := { mode := .opened, ctx := 5, line := 0, base := 2, log2 := 1, fold := 0, credit := 3 }
def chS : Channel := { chO with mode := .stopped, line := 3, tokens := [⟨{payload := 5}, 7⟩] }
def X : Link := { mode := .up, lanes := 15, retired := 4, replay := [⟨5, 77, 8⟩, ⟨6, 78, 0⟩, ⟨7, 79, 0⟩], outbound := [(1, chO), (4, chS)], inbound := [(2, chO)], sendSeq := 8, ackAt := 100, sendCredit := [(0, 9)] }
def z3 := (lk 13 {X with mode := .failed})
def I : TrainInfo := { locked := 15, peerLocked := 15, peerRetired := 0, peerModule := 9, peerTrunk := 2, peerLink := 3, rtts := [100, 90, 100, 100], peerRtt := 100 }
def z5 := (lk 13 {X with mode := .retraining})
def z6 := (lk 13 {X with mode := .retraining})
def only13 (s : State) : State := en 13 true ((List.range 48).foldl (fun s l => en l false s) s)
def z11 := (lk 13 {X with mode := .training, trainAt := 10})
def z12 := (only13 (lk 13 {X with mode := .up}))
def z14 := (en 13 true (lk 13 {X with mode := .training}))
def ce (a arg p l b : Nat) : CalEntry := ⟨a, BitVec.ofNat 32 arg, p, l, BitVec.ofNat 48 b⟩
def withCal (s : State) (p : Nat) (es : List CalEntry) : State := { s with cals := [(p, es)] }
def took (s : State) (p a : Nat) : State := match s.takeEntry p a with | some (_, u) => u | none => s
def oa (ctx inb lk ch line base lg fold : Nat) : Nat := ctx * 2^26 + inb * 2^25 + lk * 2^22 + ch * 2^17 + line * 2^10 + base * 64 + lg * 8 + fold
def opx (a arg : Nat) (x : Link := X) : State := withCal (lk 13 x) (T 13) [ce a arg 0 0 3016]
def E (a arg : Nat) := ce a arg 0 0 3016
def z17 := ({(lk 13 X) with mt := {busy.mt with stopDue := true}})
def Xt : Link := { X with outbound := [(1, {chO with tokens := [⟨{payload := 5}, 7⟩, ⟨{payload := 6}, 9⟩]})] }
def z18 := (lk 13 {Xt with mode := .retraining})
def tk : ChannelToken := ⟨{payload := 5}, 12345690⟩
def Xi : Link := { X with inbound := [(1, {chO with tokens := [tk, ⟨{payload := 6}, 9⟩]})] }
def edge := coreAt (lineCluster 0 0) 0 0 + lineCore 0 0
def tkn : State := {(lk 13 Xi) with flights := [⟨edge, seamDir 0, ((lk 13 Xi).advance 12).clock + 33, 4, {}⟩]}

theorem test_premises_links_train_and_fail :
    ((en 13 false busy).pageOpen 3 (pgTrunk (trunkOf ↑13)) = true ∧
        (en 13 false busy).linkEnabled ↑13 = false ∧ ((en 13 false busy).link ↑13).laneTest = []) ∧
    ((en 13 true (lk 13 X)).pageOpen 3 (pgTrunk (trunkOf ↑13)) = true ∧
        (en 13 true (lk 13 X)).linkEnabled ↑13 = true ∧
          ((en 13 true (lk 13 X)).link ↑13).mode ≠ LinkMode.off ∧ ((en 13 true (lk 13 X)).link ↑13).mode ≠ LinkMode.failed) ∧
    (((lk 13 X).link ↑13).mode = LinkMode.up ∧ (lk 13 X).retrainDue (↑13) RetrainCause.replayed8 = true) ∧
    (((lk 13 X).link ↑13).mode ≠ LinkMode.off ∧
        bitAt ((lk 13 X).link ↑13).retired.toNat ↑1 = false ∧ ((lk 13 X).link ↑13).mode = LinkMode.up) ∧
    ((z3.link ↑13).mode ≠ LinkMode.off ∧ bitAt (z3.link ↑13).retired.toNat ↑1 = false ∧ (z3.link ↑13).mode ≠ LinkMode.up) ∧
    ((z5.link ↑13).mode = LinkMode.retraining) ∧
    ((z6.link ↑13).mode = LinkMode.retraining ∧ trainFault z6.moduleId (z6.link ↑13) I = none) ∧
    ((z11.link ↑13).mode = LinkMode.training) ∧
    (∀ (l : Nat), l < 48 → z12.linkEnabled l = false ∨ (z12.link l).mode = LinkMode.up ∨ (z12.link l).mode = LinkMode.failed) ∧
    (¬∀ (l : Nat), l < 48 → z14.linkEnabled l = false ∨ (z14.link l).mode = LinkMode.up ∨ (z14.link l).mode = LinkMode.failed) := by
  refine ⟨?_, ?_, ?_, ?_, ?_, ?_, ?_, ?_, ?_, ?_⟩ <;> decide +kernel

theorem test_premises_circuits_carry_tokens :
    (((opx 32 (oa 5 0 5 7 9 3 2 0)).takeEntry (pgTrunk ↑1) 32).map (·.1) = some (E 32 (oa 5 0 5 7 9 3 2 0)) ∧
        let arg' := BitVec.toNat (E 32 (oa 5 0 5 7 9 3 2 0)).arg;
        let inb' := bitAt arg' 25;
        let l' := 8 * ↑1 + field arg' 24 22;
        let ch' := field arg' 21 17;
        let new' := openChannel arg';
        (took (opx 32 (oa 5 0 5 7 9 3 2 0)) (T 13) 32).openRefused inb' l' ch' new' = false ∧
          ((took (opx 32 (oa 5 0 5 7 9 3 2 0)) (T 13) 32).channel inb' l' ch').mode = ChannelMode.closed ∧ inb' = false) ∧
    (((opx 32 (oa 5 0 5 1 9 3 2 0)).takeEntry (pgTrunk ↑1) 32).map (·.1) = some (E 32 (oa 5 0 5 1 9 3 2 0)) ∧
        let arg' := BitVec.toNat (E 32 (oa 5 0 5 1 9 3 2 0)).arg;
        let inb' := bitAt arg' 25;
        let l' := 8 * ↑1 + field arg' 24 22;
        let ch' := field arg' 21 17;
        let new' := openChannel arg';
        (took (opx 32 (oa 5 0 5 1 9 3 2 0)) (T 13) 32).openRefused inb' l' ch' new' = true) ∧
    (((opx 32 (oa 5 0 5 4 3 2 1 0)).takeEntry (pgTrunk ↑1) 32).map (·.1) = some (E 32 (oa 5 0 5 4 3 2 1 0)) ∧
        let arg' := BitVec.toNat (E 32 (oa 5 0 5 4 3 2 1 0)).arg;
        let inb' := bitAt arg' 25;
        let l' := 8 * ↑1 + field arg' 24 22;
        let ch' := field arg' 21 17;
        let new' := openChannel arg';
        (took (opx 32 (oa 5 0 5 4 3 2 1 0)) (T 13) 32).openRefused inb' l' ch' new' = false ∧
          ((took (opx 32 (oa 5 0 5 4 3 2 1 0)) (T 13) 32).channel inb' l' ch').mode = ChannelMode.stopped) ∧
    (((opx 33 (oa 5 0 5 4 3 2 1 0)).takeEntry (pgTrunk ↑1) 33).map (·.1) = some (E 33 (oa 5 0 5 4 3 2 1 0))) ∧
    (z17.mt.stopDue = true) ∧
    (let c' := (lk 13 Xt).channel false ↑13 ↑1;
      (lk 13 Xt).flights = [] ∧
        c'.tokens =
            [{ tok := { payload := 5#128, fold := 0#3, spare := 0#2 : Token }, cycle := 7 : ChannelToken },
              { tok := { payload := 6#128, fold := 0#3, spare := 0#2 : Token }, cycle := 9 : ChannelToken }] ∧
          c'.mode = ChannelMode.opened ∧
            c'.credit ≠ 0 ∧ ((lk 13 Xt).link ↑13).mode = LinkMode.up ∧ ((lk 13 Xt).link ↑13).replay.length < 256) ∧
    (let c' := z18.channel false ↑13 ↑1;
      z18.flights = [] ∧
        c'.tokens =
            [{ tok := { payload := 5#128, fold := 0#3, spare := 0#2 : Token }, cycle := 7 : ChannelToken },
              { tok := { payload := 6#128, fold := 0#3, spare := 0#2 : Token }, cycle := 9 : ChannelToken }] ∧
          c'.mode = ChannelMode.opened ∧ c'.credit ≠ 0 ∧ (z18.link ↑13).mode ≠ LinkMode.up) ∧
    (let c' := (lk 13 Xi).channel true ↑13 ↑1;
      let io' := linkDie ↑13;
      let edge' := coreAt (lineCluster io' c'.line) 0 0 + lineCore io' c'.line;
      c'.tokens = [tk, { tok := { payload := 6#128, fold := 0#3, spare := 0#2 : Token }, cycle := 9 : ChannelToken }] ∧
        c'.mode ≠ ChannelMode.closed ∧
          c'.credit ≠ 0 ∧
            (lk 13 Xi).ownsLine io' c' = true ∧
              (lk 13 Xi).now ≤ tk.cycle ∧
                let u' := (lk 13 Xi).advance (tk.cycle - (lk 13 Xi).now);
                let taken' := (lk 13 Xi).flights.any fun f => f.dest == edge' && f.dir == seamDir io' && f.due == u'.clock + 33;
                taken' = false ∧ ((lk 13 Xi).link ↑13).slots = [] ∧ ((lk 13 Xi).link ↑13).items = []) ∧
    (let c' := tkn.channel true ↑13 ↑1;
      let io' := linkDie ↑13;
      let edge' := coreAt (lineCluster io' c'.line) 0 0 + lineCore io' c'.line;
      c'.tokens = [tk, { tok := { payload := 6#128, fold := 0#3, spare := 0#2 : Token }, cycle := 9 : ChannelToken }] ∧
        c'.mode ≠ ChannelMode.closed ∧
          c'.credit ≠ 0 ∧
            tkn.ownsLine io' c' = true ∧
              tkn.now ≤ tk.cycle ∧
                let u' := tkn.advance (tk.cycle - tkn.now);
                let taken' := tkn.flights.any fun f => f.dest == edge' && f.dir == seamDir io' && f.due == u'.clock + 33;
                taken' = true ∧ (tkn.link ↑13).slots = [] ∧ (tkn.link ↑13).items = []) := by
  refine ⟨?_, ?_, ?_, ?_, ?_, ?_, ?_, ?_, ?_⟩ <;> decide +kernel

end T08

namespace T08b

def lk (l : Nat) (x : Link) (s : State := busy) : State := { s with harness := { s.harness with links := SMap.put s.harness.links l x } }
def T (l : Nat) := pgTrunk (l / 8)
def chO : Channel := { mode := .opened, ctx := 5, line := 0, base := 2, log2 := 1, fold := 0, credit := 3 }
def chS : Channel := { chO with mode := .stopped, line := 3, tokens := [⟨{payload := 5}, 7⟩] }
def X : Link := { mode := .up, lanes := 15, retired := 4, replay := [⟨5, 77, 8⟩, ⟨6, 78, 0⟩, ⟨7, 79, 0⟩], outbound := [(1, chO), (4, chS)], inbound := [(2, chO)], sendSeq := 8, ackAt := 100, sendCredit := [(0, 9)] }
def ce (a arg p l b : Nat) : CalEntry := ⟨a, BitVec.ofNat 32 arg, p, l, BitVec.ofNat 48 b⟩
def withCal (s : State) (p : Nat) (es : List CalEntry) : State := { s with cals := [(p, es)] }
def op (a arg : Nat) (x : Link := X) : State := withCal (lk 13 x) (T 13) [ce a arg 0 0 3016]
def P (dm : Nat) (op : Nat := 1) : Packet := { opcode := BitVec.ofNat 8 op, dmod := BitVec.ofNat 14 dm, dest := epCluster 3 1, src := epCluster 0 1, addr := 0x123456000, ctx := 5, len := 4 }
def rt (e : Nat) (s : State) : State := { s with harness := { s.harness with routes := [(77, BitVec.ofNat 32 e)] } }
def e1 := 2^31 + 1 * 2^27 + 0x20   -- trunk 1, link 5 (=13)
def z2 := (rt e1 (lk 13 {X with sendCredit := [(1, 1)]}))
def fr (w : Nat) : BitVec 3200 := stampFrame w 5 false
def dfr (seq : Nat) : Nat := (dataFrame seq [⟨0x20 + 1, headerBits (P 77), [5]⟩, ⟨0x10, 5 + (2^15 + 2 * 2^10 + 3 * 64) * 2^408 + 2 * 2^456, [0]⟩] 0x43 0).toNat
def pres (s : State) : State := { s with custody := { s.custody with strap := true } }

/-- A stamped data frame passes its CRC (R432). -/
theorem crc_of_frame (n : Nat) (h : dfr n + 5 <<< 64 + ofBool false <<< 63 < 2 ^ 3168) :
    frameCrc (fr (dfr n)).toNat = field (fr (dfr n)).toNat 3199 3168 := frameCrc_stampFrame _ _ _ h

theorem field_of_frame (n hi lo : Nat) (h : dfr n + 5 <<< 64 + ofBool false <<< 63 < 2 ^ 3168) (hh : hi < 3168) :
    field (fr (dfr n)).toNat hi lo = field (dfr n + 5 <<< 64 + ofBool false <<< 63) hi lo := field_stampFrame _ _ _ _ _ h hh

/-- A frame whose CRC is one above that of its bytes. -/
def badFrame : BitVec 3200 := BitVec.ofNat 3200 (dfr 0 + ((frameCrc (dfr 0) + 1) % 2 ^ 32) <<< 3168)

theorem crc_of_badFrame : frameCrc badFrame.toNat ≠ field badFrame.toNat 3199 3168 := frameCrc_ne_succ (dfr 0) (by decide +kernel)

theorem test_premises_frames_carry_packets :
    ((busy.setReg (pgIoDie 1) 144 77).pageOpen 3 (pgIoDie ↑1) = true ∧ field (2818572543#32).toNat 29 27 < 6) ∧
    ((rt e1 (lk 13 X)).leavesModule (P 77) = true ∧
        let u' := (rt e1 (lk 13 X)).takeAtHub (P 77) none false;
        let e' := u'.routeEntry (P 77).dmod;
        let up' := if bitAt e' 31 = true then u'.upLinks e' else [];
        let l' := up'.getD (pathHash (P 77) % up'.length) 0;
        channelOf (P 77) ≠ 3 ∧ up' ≠ [] ∧ u'.exitHub (P 77) = ↑0 ∧ (u'.link l').items = [] ∧ (u'.link l').replay.length < 256) ∧
    (z2.leavesModule (P 77) = true ∧
        let u' := z2.takeAtHub (P 77) none false;
        let e' := u'.routeEntry (P 77).dmod;
        let up' := if bitAt e' 31 = true then u'.upLinks e' else [];
        let l' := up'.getD (pathHash (P 77) % up'.length) 0;
        let set' := ofBool (u'.onSetB e' none false);
        channelOf (P 77) ≠ 3 ∧
          up' ≠ [] ∧
            u'.exitHub (P 77) = ↑0 ∧
              (u'.link l').items = [] ∧
                (u'.link l').replay.length < 256 ∧
                  (packetFlits (P 77)).length ≤ SMap.getD (u'.link l').sendCredit (pairSet (linkPair (P 77)) set') 0) ∧
    ((rt e1 (lk 13 X)).leavesModule (P 77) = true ∧
        let u' := (rt e1 (lk 13 X)).takeAtHub (P 77) none false;
        let e' := u'.routeEntry (P 77).dmod;
        let up' := if bitAt e' 31 = true then u'.upLinks e' else [];
        channelOf (P 77) ≠ 3 ∧ up' ≠ [] ∧ u'.exitHub (P 77) ≠ ↑1) ∧
    ((rt e1 (lk 13 X)).leavesModule (P 78) = true ∧
        let u' := (rt e1 (lk 13 X)).takeAtHub (P 78) none false;
        let e' := u'.routeEntry (P 78).dmod;
        let up' := if bitAt e' 31 = true then u'.upLinks e' else [];
        channelOf (P 78) ≠ 3 ∧ up' = [] ∧ channelOf (P 78) = 0) ∧
    ((rt e1 (lk 13 X)).leavesModule (P 78 32) = true ∧
        let u' := (rt e1 (lk 13 X)).takeAtHub (P 78 32) none false;
        let e' := u'.routeEntry (P 78 32).dmod;
        let up' := if bitAt e' 31 = true then u'.upLinks e' else [];
        channelOf (P 78 32) ≠ 3 ∧ up' = [] ∧ channelOf (P 78 32) = 2) ∧
    ((rt e1 (lk 13 X)).leavesModule (P 77 48) = true ∧ channelOf (P 77 48) = 3) ∧
    (((lk 13 X).link ↑13).mode = LinkMode.up ∧
        let x' := (lk 13 X).link ↑13;
        let rest' := dropAcked (5#12).toNat x'.replay;
        rest' ≠ []) ∧
    (decide (((lk 13 X).link ↑13).mode = LinkMode.up) = true ∧
        frameCrc badFrame.toNat ≠ field badFrame.toNat 3199 3168) ∧
    (decide (((lk 13 X).link ↑13).mode = LinkMode.up) = true ∧
        frameCrc (fr (dfr 0)).toNat = field (fr (dfr 0)).toNat 3199 3168 ∧
          field (fr (dfr 0)).toNat 95 88 = 1 ∧ (field (fr (dfr 0)).toNat 87 76 + 4096 - ((lk 13 X).link ↑13).recvSeq) % 4096 = 0) ∧
    (decide (((lk 13 X).link ↑13).mode = LinkMode.up) = true ∧
        frameCrc (fr (dfr 3)).toNat = field (fr (dfr 3)).toNat 3199 3168 ∧
          field (fr (dfr 3)).toNat 95 88 = 1 ∧
            (field (fr (dfr 3)).toNat 87 76 + 4096 - ((lk 13 X).link ↑13).recvSeq) % 4096 ≠ 0 ∧
              (field (fr (dfr 3)).toNat 87 76 + 4096 - ((lk 13 X).link ↑13).recvSeq) % 4096 < 2048) ∧
    (decide (bitAt (2281701376#32).toNat 31 = true) = true ∧
        decide (field (2281701376#32).toNat 29 27 < 6) = true ∧
          decide (bitAt (BitVec.toNat (SMap.getD ((pres (lk 13 X)).link ↑13).laneTest ↑2 0#32)) 31 = false) = true ∧
            (pres (lk 13 X)).custody.present = true ∧ ((pres (lk 13 X)).link ↑13).laneTest = []) ∧
    (decide (bitAt (2281701376#32).toNat 31 = true) = true ∧
        decide (field (2281701376#32).toNat 29 27 < 6) = true ∧
          decide (bitAt (BitVec.toNat (SMap.getD ((lk 13 X).link ↑13).laneTest ↑2 0#32)) 31 = false) = true ∧
            (lk 13 X).custody.present = false) := by
  have h0 : dfr 0 + 5 <<< 64 + ofBool false <<< 63 < 2 ^ 3168 := by decide +kernel
  have h3 : dfr 3 + 5 <<< 64 + ofBool false <<< 63 < 2 ^ 3168 := by decide +kernel
  rw [crc_of_frame 0 h0, crc_of_frame 3 h3, field_of_frame 0 95 88 h0 (by decide), field_of_frame 0 87 76 h0 (by decide),
    field_of_frame 3 95 88 h3 (by decide), field_of_frame 3 87 76 h3 (by decide)]
  refine ⟨?_, ?_, ?_, ?_, ?_, ?_, ?_, ?_, ⟨?_, crc_of_badFrame⟩, ⟨?_, rfl, ?_⟩, ⟨?_, rfl, ?_⟩, ?_, ?_⟩ <;> decide +kernel

end T08b

namespace T09

def P (dest : BitVec 16) (op : Nat := 1) (n : Nat := 0) : Packet := { opcode := BitVec.ofNat 8 op, dest, src := epCluster 0 1, addr := 0x123456000, ctx := 5, len := 4, dmod := busy.moduleId, data := (List.range n).map fun i => BitVec.ofNat 256 (i+3) }
def rs (l : List (Nat × RouterState)) : State := { busy with mesh := { busy.mesh with routers := l } }
def h1 : HeldPacket := { packet := P (epCluster 3 1) 1 4, input := 4, flits := [350, 351, 352], got := 3 }
def h2 : HeldPacket := { packet := P (epCluster 0 1) 1 2, input := 1, flits := [350], got := 2, sent := 1 }
def h3 : HeldPacket := { packet := P (epCluster 0 1) 0x30 2, input := 6, flits := [350, 351], got := 2, sent := 0 }
def h4 : HeldPacket := { packet := P (epIo 1 3) 2 2, input := 0, flits := [350, 351], got := 2, sent := 0 }
def hb : HeldPacket := { h4 with packet := { h4.packet with badHeader := true } }
def S (src tag : Nat) (cnt : Nat := 1) : Packet := { opcode := 0x20, dest := epCluster 3 4, src := epCluster src 4, tag := BitVec.ofNat 10 tag, addr := 0x40000C00600, ctx := 5, count := BitVec.ofNat 16 cnt, dmod := busy.moduleId, smod := busy.moduleId, data := [3, 4, 5, 6] }
def hs (p : Packet) : HeldPacket := { packet := p, input := 3, flits := [350, 351, 352], got := 3 }
def sh (p : Packet) : StitchHeld := { packet := p, input := 1, entered := 300 }
def z3 := (rs [(3, { store := [{sh (S 9 2) with free := true}, sh (S 7 1)] })])
def rmt : State := { (busy.modCl 8 fun c => { c with handles := [(2, { base := 0xA0000000#32 + 20 * 16384 + 0 })], rows := [(3, { data := 0x123456789abcdef0123456789, poison := 3 })] }) with mem := { bytes := [(0x123456001, 4)], granules := [(granuleOf 0x123456000, 0x85)] }, ready := {busy.ready with msd := [0,1,2]} }
def Sr (a : Nat) (x : Nat := 5) : Packet := { S 1 2 with addr := BitVec.ofNat 48 a, ctx := BitVec.ofNat 6 x, wordPoison := 2 }
def ad (k r b : Nat) : Nat := 0x40000000000 + k * 2^22 + r * 512 + b
def z4 := (match placeOf 0x123456000 with | .hbm _ l => l | _ => 0)
def z5 := (match placeOf 0x123456000 with | .hbm _ l => l | _ => 0)
def ak : Packet := { opcode := 0x21, dest := epNote 3 4, src := epCluster 1 4, smod := 5, tag := 6 }
def nt (st : List StitchHeld) := rs [(3, { notes := [(4, ⟨5, 6, 7⟩, ⟨8, 9, 10⟩)], store := st, held := [hs (S 1 2)] })]
def ak2 : Packet := { ak with dest := epCluster 8 4 }
def O (t : Nat) : StitchOut := ⟨t, S 1 2, 3, 100⟩
def so (l : List StitchOut) (r : Nat) : State := busy.modCl 8 fun c => { c with stitchOut := l, stitchDesc := some (BitVec.ofNat 256 (1 * 2^252 + 4 * 2^160 + 2^244 + 2 * 2^232 + 2 * 2^226)), stitchList := { pos := 64, record := r, len := 96, ended := false } , handles := [(2, { base := 0xA0000000#32 + 20 * 16384 + 0 })]}

theorem test_premises_packets_cross_the_mesh :
    (((rs [(0, { held := [h1] : RouterState })]).router ↑0).held = [h1] ∧
        ((rs [(0, { held := [h1] : RouterState })]).router ↑0).store = [] ∧
          h1.packet.badHeader = false ∧
            h1.flits = [350, 351, 352] ∧
              h1.input < 16 ∧
                channelOf h1.packet ≠ 2 ∧
                  (rs [(0, { held := [h1] : RouterState })]).outputOf (↑0) h1.packet = ↑1 ∧
                    (rs [(0, { held := [h1] : RouterState })]).hasCredit (↑0) (↑1) h1.packet = true) ∧
    (((rs [(0, { held := [h2] : RouterState })]).router ↑0).held = [h2] ∧
        ((rs [(0, { held := [h2] : RouterState })]).router ↑0).store = [] ∧
          h2.packet.badHeader = false ∧
            h2.flits = [350] ∧
              h2.input < 16 ∧
                channelOf h2.packet ≠ 2 ∧
                  (rs [(0, { held := [h2] : RouterState })]).outputOf (↑0) h2.packet = ↑4 ∧
                    (rs [(0, { held := [h2] : RouterState })]).hasCredit (↑0) (↑4) h2.packet = true ∧
                      nextRouter ↑0 ↑4 = none ∧ flitsOf h2.packet ≤ h2.sent + 1) ∧
    (((rs [(0, { held := [h3], lcRun := [(4, 20)], control := [(4, 340)] : RouterState })]).router ↑0).held = [h3] ∧
        ((rs [(0, { held := [h3], lcRun := [(4, 20)], control := [(4, 340)] : RouterState })]).router ↑0).store = [] ∧
          h3.packet.badHeader = false ∧
            h3.flits = [350, 351] ∧
              h3.input < 16 ∧
                channelOf h3.packet ≠ 2 ∧
                  (rs [(0, { held := [h3], lcRun := [(4, 20)], control := [(4, 340)] : RouterState })]).outputOf (↑0) h3.packet = ↑4 ∧
                    (rs [(0, { held := [h3], lcRun := [(4, 20)], control := [(4, 340)] : RouterState })]).hasCredit (↑0) (↑4)
                          h3.packet =
                        true ∧
                      nextRouter ↑0 ↑4 = none ∧ h3.sent + 1 < flitsOf h3.packet ∧ flitsOf h3.packet ≤ h3.got) ∧
    (firstSome (fun x => x.packet.badHeader) ((rs [(320, { held := [h3, hb] : RouterState })]).router ↑320).held = some hb) := by
  refine ⟨?_, ?_, ?_, ?_⟩ <;> decide +kernel

theorem test_premises_stitches_merge_and_split :
    (let x' := (rs [(3, { held := [hs (S 1 2)], store := [sh (S 9 2), sh (S 8 1), sh (S 7 1)] : RouterState })]).router ↑3;
      x'.store.length < 16 ∧
        (S 1 2).badHeader = false ∧
          x'.takeStitch (S 1 2) = some (hs (S 1 2), 352) ∧
            let u' :=
              (rs [(3, { held := [hs (S 1 2)], store := [sh (S 9 2), sh (S 8 1), sh (S 7 1)] : RouterState })]).reachClock (352 + 1);
            let new' := { packet := S 1 2, input := (hs (S 1 2)).input, entered := u'.clock : StitchHeld };
            ¬new' ∈ x'.store) ∧
    (firstSome (fun h => !h.free) (z3.router ↑3).store = some (sh (S 7 1))) ∧
    (placeOf (Sr (ad 8 3 0)).addr.toNat = Place.rowWindow 8 3 0 ∧
        ((rmt.cl 8).remoteHandle 3 1).isSome = true ∧ rmt.ownerOf 8 = some (Sr (ad 8 3 0)).ctx.toNat) ∧
    (placeOf (Sr (ad 8 3 0) 6).addr.toNat = Place.rowWindow 8 3 0 ∧
        ((rmt.cl 8).remoteHandle 3 1).isSome = true ∧ rmt.ownerOf 8 ≠ some (Sr (ad 8 3 0) 6).ctx.toNat) ∧
    (placeOf (Sr 4886716416).addr.toNat = Place.hbm 0 z4 ∧
        let st' := rmt.memStatus (Sr 4886716416).ctx.toNat (Sr 4886716416).addr.toNat true;
        st' = 0) ∧
    (placeOf (Sr 4886716416 6).addr.toNat = Place.hbm 0 z5 ∧
        let st' := rmt.memStatus (Sr 4886716416 6).ctx.toNat (Sr 4886716416 6).addr.toNat true;
        st' ≠ 0) ∧
    (epKind ak.dest = 3 ∧
        let r' := epNumber ak.dest;
        let n' := epNoteNumber ak.dest;
        SMap.get? ((nt []).router r').notes n' =
            some ({ src := 5#16, smod := 6#14, tag := 7#10 : AckTarget }, { src := 8#16, smod := 9#14, tag := 10#10 : AckTarget }) ∧
          ((nt []).router r').store = []) ∧
    (epKind ak2.dest = 0 ∧
        ak2.status = 0#8 ∧
          let k' := epNumber ak2.dest;
          firstSome (fun o => o.tag == ak2.tag.toNat) ((so [O 6] 4).cl k').stitchOut = some (O 6)) ∧
    (let c' := (so [O 0, O 6] 1).cl ↑8;
      let i' := c'.stitchList.record;
      let n' :=
        min (snSegs (BitVec.ofNat 256 (1 * 2 ^ 252 + 4 * 2 ^ 160 + 2 ^ 244 + 2 * 2 ^ 232 + 2 * 2 ^ 226)).toNat - i')
          (64 - c'.stitchOut.length);
      c'.stitchDesc = some (BitVec.ofNat 256 (1 * 2 ^ 252 + 4 * 2 ^ 160 + 2 ^ 244 + 2 * 2 ^ 232 + 2 * 2 ^ 226)) ∧
        (so [O 0, O 6] 1).halts ↑8 = false ∧ n' ≠ 0) := by
  refine ⟨?_, ?_, ?_, ?_, ?_, ?_, ?_, ?_, ?_⟩ <;> decide +kernel

end T09

namespace T10

def mm : State := { busy with mem := { bytes := [(0x10000000FFF, 3), (0x10000001005, 1), (0x10000001040, 9)], granules := [(0, 0x85), (granuleOf 0x10000001000, 0x85)] }, ready := { busy.ready with msd := [0,1] } }
def pr (a n : Nat) (x : Nat := 5) : Packet := { opcode := 1, src := epCluster 8 1, tag := 5, ctx := BitVec.ofNat 6 x, addr := BitVec.ofNat 48 a, len := BitVec.ofNat 7 n, smod := busy.moduleId, dest := epIo 0 13 }
def pw (a n : Nat) (m : Option (BitVec 512)) (x : Nat := 5) : Packet := { pr a 0 x with opcode := 2, data := (List.range n).map fun i => BitVec.ofNat 256 (0x0102030405060708090a * (i + 1)), mask := m, wordPoison := 2 }
def lw (op n : Nat) : Nat := (0x1000 * 2^464 + 2^328 + 2^312 + 2^296 + n * 2^272 + op * 2^60 + 3 * 2^56 + 2 * 2^44 + 1 * 2^31)
def O (w : Bool) : Outstanding := ⟨0, 3, 9, 0x1000, 2, 300, w, false, 0⟩
def so (op : Nat) (n : Nat) : State := mm.modCl 8 fun c => { c with outstanding := [⟨0, 3, 7, 0x1000, 2, 300, false, false, 4⟩, O (op ≥ 3), ⟨3, 3, 9, 0x1000, 2, 300, false, false, 5⟩], stream := { c.stream with slots := [(3, { desc := some { bits := BitVec.ofNat 2048 (lw op n) }, op := op, started := true, pieces := 1 })] }, handles := [(2, { base := 0x80000000#32 + 20 * 16384 + 0 })] }
def ak : Packet := { opcode := 3, dest := epCluster 8 1, tag := 9, data := [3, 4], status := 0x81 }
def wlS (a : Nat) : State := busy.modCl 8 fun c => { c with handles := [], work := { addr := a, len := 320, pos := 64, ended := false }, stitchList := { addr := a, len := 320, pos := 64, ended := false } }
def pb (s : State) : State := { (s.setReg (pgReuse 2) 0x44 (0 + 2^16 * 5000)) with mem := { s.mem with probing := [3, 2], cache := [(2, [{ stack := 7, line := 5, keep := true, dirty := 3, sectors := 7}, {stack := 6, line := 100, sectors := 1, dirty := 0, keep := true}]), (3, [{stack := 9, line := 0, sectors := 1, dirty := 0, keep := true}])] } }
def sc (p : Nat) (s : State := mm) : State := { s with mem := { s.mem with scrubPos := [(4, p), (7, 393215)] } }
def au (x : Nat) : State := { (sc 5 (mm.modMt fun m => { m with counter := 4096 * 65530 + 77 })) with beats := 65530, mem := { mm.mem with scrubbed := [(4, x), (5, x), (6, x), (7, x)] } }

theorem test_premises_requests_are_answered :
    (storeAddr ((pw 1099511631875 2 none).addr.toNat / 32 * 32) = some 1099511631872 ∧
        (memWf mm.mem.bytes ∧ memWf mm.host.bytes) ∧
          let st' := mm.memStatus (pw 1099511631875 2 none).ctx.toNat ((pw 1099511631875 2 none).addr.toNat / 32 * 32) true;
          st' = 0) ∧
    (storeAddr ((pw 4099 64 none 6).addr.toNat / 32 * 32) = some 4096 ∧
        (memWf mm.mem.bytes ∧ memWf mm.host.bytes) ∧
          let st' := mm.memStatus (pw 4099 64 none 6).ctx.toNat ((pw 4099 64 none 6).addr.toNat / 32 * 32) true;
          st' ≠ 0) ∧
    (decide (epKind ak.dest = 0) = true ∧ (O false).isWrite = false ∧ ((so 1 64).cl (epNumber ak.dest)).stopped = false) ∧
    (decide (epKind ak.dest = 0) = true ∧ (O true).isWrite = true) ∧
    (decide (epKind ak.dest = 0) = true) ∧
    (decide (↑0 ≠ 4) = true) ∧
    (let x' := ((wlS 4886718336).cl ↑8).list ↑1;
      ((wlS 4886718336).cl ↑8).stopped = false ∧ x'.ended = false ∧ (↑1 = 1 → ((wlS 4886718336).cl ↑8).stitchDesc = none)) := by
  refine ⟨?_, ?_, ?_, ?_, ?_, ?_, ?_⟩ <;> decide +kernel

theorem test_premises_memory_is_kept :
    (decide (true = true → ↑1 < 2) = true ∧
        let n' := if true = true then pgIoDie ↑1 else pgMsd ↑1;
        (busy.setReg (pgIoDie 1) 128 77).pageOpen 3 n' = true) ∧
    ((pb busy).mem.probing.contains ↑2 = true) ∧
    ((sc 18874367).regOf (pgScrub ↑1) 64 ≠ 0 ∧ (sc 18874367).ready.msd.contains ↑1 = true ∧ ↑0 < 3) ∧
    (let n' := pgScrub ↑1;
      let iv' := (au 5).regOf n' 64;
      let behind' := fun i =>
        iv' ≠ 0 ∧ SMap.getD (au 5).mem.scrubbed (4 * ↑1 + i) 0 - SMap.getD (au 5).mem.audited (4 * ↑1 + i) 0 < scrubExpected iv' / 2;
      ∃ i, i < 4 ∧ behind' i) ∧
    (let n' := pgScrub ↑1;
      let iv' := (au 500000).regOf n' 64;
      let behind' := fun i =>
        iv' ≠ 0 ∧
          SMap.getD (au 500000).mem.scrubbed (4 * ↑1 + i) 0 - SMap.getD (au 500000).mem.audited (4 * ↑1 + i) 0 < scrubExpected iv' / 2;
      ∀ (i : Nat), i < 4 → ¬behind' i) := by
  refine ⟨?_, ?_, ?_, ?_, ?_⟩ <;> decide +kernel

end T10

namespace T11

def bytesOf (w n : Nat) : List Byte := (List.range n).map fun i => BitVec.ofNat 8 (w / 2^(8*i))
def memAt (a : Nat) (bs : List Byte) (s : State := busy) : State := { s with mem := { bytes := memWriteList [] a bs, granules := [(granuleOf 0x10000001000, 0x85)] } }
def wl (kind fe fence sg : Nat) (n : Nat) : State := (memAt 0x10000001008 (bytesOf (kind * 2^60 + fe * 2^58 + (n/8) * 2^50 + fence * 2^49 + sg * 2^48 + 5 * 2^42 + 0x1122334455667788 * 2^64) n)).modCl 8 fun c => { c with work := { addr := 0x10000001000, len := 400, pos := 8, record := 2, ended := false }, doneRecords := [0, 1], handles := [(2, { base := 0x80000000#32 + 60 * 16384 + 0 }), (3, { base := 0xC0000000#32 + 60 * 16384 + 100 }), (5, { base := 0x80000000#32 + 60 * 16384 + 200 })] }
def lw (op n : Nat) (wait : Nat := 0) : Nat := (0x10000001000 * 2^464 + 2^328 + 2^312 + 2^296 + n * 2^272 + op * 2^60 + 3 * 2^56 + 2 * 2^44 + 1 * 2^31 + wait * 2^52 + 2 * 2^25 + 9 * 2^64 + (if op = 2 then 5 * 2^262 + 6 * 2^259 else 0))
def D (w : Nat) : PendingDesc := { bits := BitVec.ofNat 2048 w, record := 4 }
def st (w : Nat) : State := (wl 6 2 0 0 8).modCl 8 fun c => { c with stream := { c.stream with queue := [D w, D 7] }, arrivals := [(2, 8)] }
def qs : State := (busy.modCl 8 fun c => { c with stream := { c.stream with slots := [(3, { desc := some (D (lw 2 64)), started := true, tokens := [{payload := 5}, {payload := 6}], share := some (5, 6, 0), credit := 2 })] } }).modCore 8 5 fun c => { c with slots := [(0, BitVec.ofNat 512 (2^63 + 3 * 2^30))] }
def ad (k r b : Nat) : Nat := 0x40000000000 + k * 2^22 + r * 512 + b
def qp : Packet := { opcode := 0x10, tag := 9, ctx := 5, addr := BitVec.ofNat 48 (ad 1 100 0), rsvRows := 2 }
def rp : Packet := { opcode := 0x11, tag := 9, dest := epCluster 8 1, addr := BitVec.ofNat 48 (ad 1 100 0), placeRow := 4 }
def ps : State := (wl 6 2 0 0 8).modCl 8 fun c => { c with stream := { c.stream with slots := [(3, { desc := some (D (lw 4 64)), started := true, post := some qp, message := [{data := 5}, {data := 7}] })] } }
def sd : State := (wl 6 2 0 0 8).modCl 8 fun c => { c with stream := { c.stream with slots := [(3, { desc := some (D (lw 1 64)), started := true, finished := true, pieces := 3 })] } }
def td (op tot first keep : Nat) : Nat := op * 2^124 + 1 * 2^122 + 0 * 2^120 + 2 * 2^101 + 3 * 2^88 + tot * 2^48 + first * 2^24 + keep
def run (op tot first keep row : Nat) : LacingRun := { desc := D (td op tot first keep), row := row, credit := (List.range 8).map fun i => (i, 5), tokens := if op = 1 then (List.range 8).map fun i => (i, List.replicate 5 {payload := 7}) else [], arrived := (List.range 8).map fun i => (i, row * 4) }
def la (r : LacingRun) : State := (wl 6 2 0 0 8).modCl 8 fun c => { c with lacing := { active := [(1, r)] }, rows := [(5, {data := 77})] }

/-- Every other slot of the stream engine is empty. -/
theorem slot_ps (j : Nat) (h : j ≠ 3) : ((ps.cl (epNumber rp.dest)).slot j).todo = [] := by
  obtain ⟨x, e⟩ : ∃ x, (ps.cl (epNumber rp.dest)).stream.slots = [(3, x)] := ⟨(ps.cl 8).slot 3, by decide +kernel⟩
  simp [ClusterState.slot, SMap.getD, SMap.get?, e, Ne.symm h]

theorem test_premises_lists_feed_streams :
    (let c' := (wl 1 0 1 0 136).cl ↑8;
      let l' := c'.work;
      let h' := (wl 1 0 1 0 136).fetchBytes ((wl 1 0 1 0 136).taskCtx ↑8) 0 (l'.addr + l'.pos) 8;
      let w' := ofBytes (List.map (fun x => x.fst) h'.bytes);
      let kind' := field w' 63 60;
      let fe' := field w' 59 58;
      let f' := (wl 1 0 1 0 136).fetchBytes ((wl 1 0 1 0 136).taskCtx ↑8) 0 (l'.addr + l'.pos) 136;
      c'.stopped = false ∧
        l'.ended = false ∧
          l'.pos + 8 ≤ l'.len ∧
            h'.status = 0 ∧
              (h'.bytes.any fun x => x.snd) = false ∧
                recordBytes kind' = some 136 ∧
                  8 * field w' 57 50 = 136 ∧
                    field w' 41 0 = 0 ∧
                      l'.pos + 136 ≤ l'.len ∧
                        (bitAt w' 49 = true → (upto l'.record).all c'.doneRecords.contains = true) ∧
                          c'.hasPlace kind' fe' = true ∧ f'.status = 0 ∧ (f'.bytes.any fun x => x.snd) = false ∧ kind' = 1) ∧
    (let c' := (wl 2 0 1 1 72).cl ↑8;
      let l' := c'.work;
      let h' := (wl 2 0 1 1 72).fetchBytes ((wl 2 0 1 1 72).taskCtx ↑8) 0 (l'.addr + l'.pos) 8;
      let w' := ofBytes (List.map (fun x => x.fst) h'.bytes);
      let kind' := field w' 63 60;
      let fe' := field w' 59 58;
      let f' := (wl 2 0 1 1 72).fetchBytes ((wl 2 0 1 1 72).taskCtx ↑8) 0 (l'.addr + l'.pos) 72;
      c'.stopped = false ∧
        l'.ended = false ∧
          l'.pos + 8 ≤ l'.len ∧
            h'.status = 0 ∧
              (h'.bytes.any fun x => x.snd) = false ∧
                recordBytes kind' = some 72 ∧
                  8 * field w' 57 50 = 72 ∧
                    field w' 41 0 = 0 ∧
                      l'.pos + 72 ≤ l'.len ∧
                        (bitAt w' 49 = true → (upto l'.record).all c'.doneRecords.contains = true) ∧
                          c'.hasPlace kind' fe' = true ∧ f'.status = 0 ∧ (f'.bytes.any fun x => x.snd) = false ∧ kind' = 2) ∧
    (let c' := (wl 3 2 0 0 264).cl ↑8;
      let l' := c'.work;
      let h' := (wl 3 2 0 0 264).fetchBytes ((wl 3 2 0 0 264).taskCtx ↑8) 0 (l'.addr + l'.pos) 8;
      let w' := ofBytes (List.map (fun x => x.fst) h'.bytes);
      let kind' := field w' 63 60;
      let fe' := field w' 59 58;
      let f' := (wl 3 2 0 0 264).fetchBytes ((wl 3 2 0 0 264).taskCtx ↑8) 0 (l'.addr + l'.pos) 264;
      c'.stopped = false ∧
        l'.ended = false ∧
          l'.pos + 8 ≤ l'.len ∧
            h'.status = 0 ∧
              (h'.bytes.any fun x => x.snd) = false ∧
                recordBytes kind' = some 264 ∧
                  8 * field w' 57 50 = 264 ∧
                    field w' 41 0 = 0 ∧
                      l'.pos + 264 ≤ l'.len ∧
                        (bitAt w' 49 = true → (upto l'.record).all c'.doneRecords.contains = true) ∧
                          c'.hasPlace kind' fe' = true ∧ f'.status = 0 ∧ (f'.bytes.any fun x => x.snd) = false ∧ kind' = 3) ∧
    (let c' := (wl 4 2 0 1 24).cl ↑8;
      let l' := c'.work;
      let h' := (wl 4 2 0 1 24).fetchBytes ((wl 4 2 0 1 24).taskCtx ↑8) 0 (l'.addr + l'.pos) 8;
      let w' := ofBytes (List.map (fun x => x.fst) h'.bytes);
      let kind' := field w' 63 60;
      let fe' := field w' 59 58;
      let f' := (wl 4 2 0 1 24).fetchBytes ((wl 4 2 0 1 24).taskCtx ↑8) 0 (l'.addr + l'.pos) 24;
      c'.stopped = false ∧
        l'.ended = false ∧
          l'.pos + 8 ≤ l'.len ∧
            h'.status = 0 ∧
              (h'.bytes.any fun x => x.snd) = false ∧
                recordBytes kind' = some 24 ∧
                  8 * field w' 57 50 = 24 ∧
                    field w' 41 0 = 0 ∧
                      l'.pos + 24 ≤ l'.len ∧
                        (bitAt w' 49 = true → (upto l'.record).all c'.doneRecords.contains = true) ∧
                          c'.hasPlace kind' fe' = true ∧ f'.status = 0 ∧ (f'.bytes.any fun x => x.snd) = false ∧ kind' = 4) ∧
    (let c' := (wl 5 2 0 0 24).cl ↑8;
      let l' := c'.work;
      let h' := (wl 5 2 0 0 24).fetchBytes ((wl 5 2 0 0 24).taskCtx ↑8) 0 (l'.addr + l'.pos) 8;
      let w' := ofBytes (List.map (fun x => x.fst) h'.bytes);
      let kind' := field w' 63 60;
      let fe' := field w' 59 58;
      let f' := (wl 5 2 0 0 24).fetchBytes ((wl 5 2 0 0 24).taskCtx ↑8) 0 (l'.addr + l'.pos) 24;
      c'.stopped = false ∧
        l'.ended = false ∧
          l'.pos + 8 ≤ l'.len ∧
            h'.status = 0 ∧
              (h'.bytes.any fun x => x.snd) = false ∧
                recordBytes kind' = some 24 ∧
                  8 * field w' 57 50 = 24 ∧
                    field w' 41 0 = 0 ∧
                      l'.pos + 24 ≤ l'.len ∧
                        (bitAt w' 49 = true → (upto l'.record).all c'.doneRecords.contains = true) ∧
                          c'.hasPlace kind' fe' = true ∧ f'.status = 0 ∧ (f'.bytes.any fun x => x.snd) = false ∧ kind' = 5) ∧
    (let c' := (wl 6 2 0 0 8).cl ↑8;
      let l' := c'.work;
      let h' := (wl 6 2 0 0 8).fetchBytes ((wl 6 2 0 0 8).taskCtx ↑8) 0 (l'.addr + l'.pos) 8;
      let w' := ofBytes (List.map (fun x => x.fst) h'.bytes);
      let kind' := field w' 63 60;
      let fe' := field w' 59 58;
      let f' := (wl 6 2 0 0 8).fetchBytes ((wl 6 2 0 0 8).taskCtx ↑8) 0 (l'.addr + l'.pos) 8;
      c'.stopped = false ∧
        l'.ended = false ∧
          l'.pos + 8 ≤ l'.len ∧
            h'.status = 0 ∧
              (h'.bytes.any fun x => x.snd) = false ∧
                recordBytes kind' = some 8 ∧
                  8 * field w' 57 50 = 8 ∧
                    field w' 41 0 = 0 ∧
                      l'.pos + 8 ≤ l'.len ∧
                        (bitAt w' 49 = true → (upto l'.record).all c'.doneRecords.contains = true) ∧
                          c'.hasPlace kind' fe' = true ∧ f'.status = 0 ∧ (f'.bytes.any fun x => x.snd) = false ∧ kind' = 6) ∧
    (((st 7).cl ↑8).streamOk (D 7).bits.toNat = false) ∧
    (((st (lw 1 64 1)).cl ↑8).streamOk (D (lw 1 64 1)).bits.toNat = true ∧
        (((st (lw 1 64 1)).cl ↑8).slot (sdSlot (D (lw 1 64 1)).bits.toNat)).desc = none ∧
          ((st (lw 1 64 1)).cl ↑8).waitMet (sdWaitEn (D (lw 1 64 1)).bits.toNat) (sdWaitHandle (D (lw 1 64 1)).bits.toNat)
              (sdWaitCount (D (lw 1 64 1)).bits.toNat) =
            false) ∧
    (((st (lw 1 64)).cl ↑8).streamOk (D (lw 1 64)).bits.toNat = true ∧
        (((st (lw 1 64)).cl ↑8).slot (sdSlot (D (lw 1 64)).bits.toNat)).desc = none ∧
          ((st (lw 1 64)).cl ↑8).waitMet (sdWaitEn (D (lw 1 64)).bits.toNat) (sdWaitHandle (D (lw 1 64)).bits.toNat)
              (sdWaitCount (D (lw 1 64)).bits.toNat) =
            true) ∧
    (let x' := (qs.cl ↑8).slot ↑3;
      let core' := (qs.core (↑8) 5).settleSlack qs.clock;
      let w' := core'.word { payload := 5#128, fold := 0#3, spare := 0#2 : Token }.fold.toNat;
      x'.tokens = [{ payload := 5#128, fold := 0#3, spare := 0#2 : Token }, { payload := 6#128, fold := 0#3, spare := 0#2 : Token }] ∧
        x'.share = some (5, 6, 0) ∧
          x'.credit ≠ 0 ∧
            qs.halts ↑8 = false ∧
              cwValid w' = true ∧
                SMap.get? core'.closed (pairKey 6 { payload := 5#128, fold := 0#3, spare := 0#2 : Token }.fold.toNat) = none ∧
                  core'.hasPath 6 { payload := 5#128, fold := 0#3, spare := 0#2 : Token }.fold.toNat = false ∧
                    core'.held 6 { payload := 5#128, fold := 0#3, spare := 0#2 : Token }.fold.toNat < cwCred w' 6) ∧
    (let k' := epNumber rp.dest;
      let x' := (ps.cl k').slot 3;
      (ps.cl k').postSlot rp.tag = some 3 ∧
        x'.post = some qp ∧
          x'.failed = false ∧
            3 < 16 ∧ (ps.cl k').outstanding = [] ∧ ps.halts k' = false ∧ ∀ (j : Nat), j ≠ 3 → ((ps.cl k').slot j).todo = []) ∧
    (let x' := (sd.cl ↑8).slot ↑3;
      x'.desc = some (D (lw 1 64)) ∧
        x'.started = true ∧
          x'.failed = false ∧
            x'.finished = true ∧
              x'.todo = [] ∧ x'.tokens = [] ∧ (sd.cl ↑8).stopped = false ∧ (sd.cl ↑8).outstanding = [] ∧ (D (lw 1 64)).poster = none) := by
  refine ⟨?_, ?_, ?_, ?_, ?_, ?_, ?_, ?_, ?_, ?_, ⟨?_, ?_, ?_, ?_, ?_, ?_, slot_ps⟩, ?_⟩ <;> decide +kernel

theorem test_premises_engines_move_rows :
    (SMap.get? ((la (run 1 10 2 4 3)).cl ↑8).lacing.active ↑1 = some (run 1 10 2 4 3) ∧
        lcOp (run 1 10 2 4 3).bits = 1 ∧
          (run 1 10 2 4 3).rowHere = true ∧
            lcKeeps (run 1 10 2 4 3).bits (run 1 10 2 4 3).row = true ∧ (run 1 10 2 4 3).row + 1 < lcTotal (run 1 10 2 4 3).bits) ∧
    (SMap.get? ((la (run 1 10 2 4 9)).cl ↑8).lacing.active ↑1 = some (run 1 10 2 4 9) ∧
        lcOp (run 1 10 2 4 9).bits = 1 ∧ (run 1 10 2 4 9).rowHere = true ∧ lcTotal (run 1 10 2 4 9).bits ≤ (run 1 10 2 4 9).row + 1) ∧
    (SMap.get? ((la (run 2 10 2 0 3)).cl ↑8).lacing.active ↑1 = some (run 2 10 2 0 3) ∧
        lcOp (run 2 10 2 0 3).bits = 2 ∧
          (la (run 2 10 2 0 3)).halts ↑8 = false ∧
            ((la (run 2 10 2 0 3)).cl ↑8).waitMet (lcPace (run 2 10 2 0 3).bits) (lcHandle (run 2 10 2 0 3).bits)
                  (lcRow0 (run 2 10 2 0 3).bits + (run 2 10 2 0 3).row + 1) =
                true ∧
              (∀ (j : Nat),
                  j < lcLines (run 2 10 2 0 3).bits →
                    SMap.getD (run 2 10 2 0 3).arrived j 0 = (run 2 10 2 0 3).row * lcPerRow (run 2 10 2 0 3).bits ∧
                      lcPerRow (run 2 10 2 0 3).bits ≤ SMap.getD (run 2 10 2 0 3).credit j 0) ∧
                (run 2 10 2 0 3).row + 1 < lcTotal (run 2 10 2 0 3).bits) ∧
    (SMap.get? ((la (run 2 10 2 0 9)).cl ↑8).lacing.active ↑1 = some (run 2 10 2 0 9) ∧
        lcOp (run 2 10 2 0 9).bits = 2 ∧
          (la (run 2 10 2 0 9)).halts ↑8 = false ∧
            ((la (run 2 10 2 0 9)).cl ↑8).waitMet (lcPace (run 2 10 2 0 9).bits) (lcHandle (run 2 10 2 0 9).bits)
                  (lcRow0 (run 2 10 2 0 9).bits + (run 2 10 2 0 9).row + 1) =
                true ∧
              (∀ (j : Nat),
                  j < lcLines (run 2 10 2 0 9).bits →
                    SMap.getD (run 2 10 2 0 9).arrived j 0 = (run 2 10 2 0 9).row * lcPerRow (run 2 10 2 0 9).bits ∧
                      lcPerRow (run 2 10 2 0 9).bits ≤ SMap.getD (run 2 10 2 0 9).credit j 0) ∧
                lcTotal (run 2 10 2 0 9).bits ≤ (run 2 10 2 0 9).row + 1) := by
  refine ⟨?_, ?_, ?_, ?_⟩ <;> decide +kernel

end T11

namespace T11b

def bytesOf (w n : Nat) : List Byte := (List.range n).map fun i => BitVec.ofNat 8 (w / 2^(8*i))
def memAt (a : Nat) (bs : List Byte) (s : State := busy) : State := { s with mem := { bytes := memWriteList [] a bs, granules := [(granuleOf 0x10000001000, 0x85)] } }
def wl (kind fe fence sg : Nat) (n : Nat) : State := (memAt 0x10000001008 (bytesOf (kind * 2^60 + fe * 2^58 + (n/8) * 2^50 + fence * 2^49 + sg * 2^48 + 5 * 2^42 + 0x1122334455667788 * 2^64) n)).modCl 8 fun c => { c with work := { addr := 0x10000001000, len := 400, pos := 8, record := 2, ended := false }, doneRecords := [0, 1], handles := [(2, { base := 0x80000000#32 + 60 * 16384 + 0 }), (3, { base := 0xC0000000#32 + 60 * 16384 + 100 }), (5, { base := 0x80000000#32 + 60 * 16384 + 200 })] }
def D (w : Nat) : PendingDesc := { bits := BitVec.ofNat 2048 w, record := 4 }
def aw (n kind zm : Nat) (bound : Nat := 20) : Nat := 2^60 + kind * 2^56 + 4 * 2^52 + 4 * 2^47 + zm * 2^46 + 2^45 + 2 * 2^38 + n + 5 * 2^122 + 1 * 2^109 + 7 * 2^103 * kind + bound * 2^64 + (if kind = 0 then 0x10000001000 else 0) * 2^128
def gs (d : Nat) (idx : List Nat) : State := (wl 6 2 0 0 8).modCl 8 fun c => { c with awl := { queue := [D d, D 5] }, rows := [(0, { data := BitVec.ofNat 4096 (idx.foldr (fun x n => x + n * 65536) 0) }), (240, {data := 0x1234567})], handles := SMap.put c.handles 7 { base := 0x80000000#32 + 20 * 16384 + 240 } }
def ix : List Nat := (List.range 40).map fun i => i % 7
def z1 := (gs (aw 40 0 0) (ix.map (fun i => if i = 5 then 20 else i)))
def sp (kind h s1 : Nat) : Nat := kind + h * 4 + 11 * 2^8 + 8 * 2^13 + s1 * 2^63
def fe (n0 : Nat) (dk : Nat := 1) (dh : Nat := 5) (extra : Nat := 0) : Nat := 1 * 2^100 + n0 + 2^20 + 2^40 + 2^60 + 2^80 + extra + sp 1 2 4 * 2^512 + sp dk dh 4 * 2^(512+320) + (3 * 2^60 + 0 * 2^56) * 2^1024 + 0x3f800000 * 2^(1536+256)
def fs (d : Nat) : State := (wl 6 2 0 0 8).modCl 8 fun c => { c with fes := [(2, { queue := [D d, D 5], running := [⟨D (fe 3), []⟩] })], rows := [(0, { data := 0x4000000040400000408000003f800000 })] }
def fd : State := match exec (.feDescriptorStart 8 2) ((fs (fe 4)).modCl 8 fun c => { c with fes := [(2, { queue := [D (fe 4)] })] }) with | .next t => t | _ => busy

theorem test_premises_engines_move_rows_2 :
    (let c' := (gs (aw 40 0 0) ix).cl ↑8;
      let w' := (D (aw 40 0 0)).bits.toNat;
      let g' := ((gs (aw 40 0 0) ix).popAwl ↑8).gathered (↑8) w' none;
      c'.awl.queue = [D (aw 40 0 0), D 5] ∧
        (gs (aw 40 0 0) ix).halts ↑8 = false ∧
          c'.awlOk w' = true ∧
            c'.waitMet (awWaitEn w') (awWaitHandle w') (awWaitCount w') = true ∧ g'.stop = none ∧ (D (aw 40 0 0)).poster = none) ∧
    (let c' := z1.cl ↑8;
      let w' := (D (aw 40 0 0)).bits.toNat;
      let g' := (z1.popAwl ↑8).gathered (↑8) w' none;
      c'.awl.queue = [D (aw 40 0 0), D 5] ∧
        z1.halts ↑8 = false ∧ c'.awlOk w' = true ∧ c'.waitMet (awWaitEn w') (awWaitHandle w') (awWaitCount w') = true ∧ 0 < g'.oob) ∧
    (((fs 7).cl ↑8).feOk (D 7).bits.toNat = false) ∧
    (((fs (fe 4)).cl ↑8).feOk (D (fe 4)).bits.toNat = true ∧
        ((fs (fe 4)).cl ↑8).waitMet (feWaitEn (D (fe 4)).bits.toNat) (feWaitHandle (D (fe 4)).bits.toNat)
              (feWaitCount (D (fe 4)).bits.toNat) =
            true ∧
          ((fs (fe 4)).cl ↑8).tilesMet (↑2) (D (fe 4)).bits.toNat = true ∧
            (((fs (fe 4)).cl ↑8).feRun (↑8) (↑2) (D (fe 4)).bits.toNat).census.abort = none) ∧
    ((SMap.getD (fd.cl ↑8).fes ↑2 { : FinishingEngine }).running =
          [(List.map (fun x => x.snd.running) (fd.cl 8).fes).flatten.headD { desc := D 0, outs := [] : FeRun }] ∧
        ((List.map (fun x => x.snd.running) (fd.cl 8).fes).flatten.headD { desc := D 0, outs := [] : FeRun }).desc.poster = none) := by
  refine ⟨?_, ?_, ?_, ?_, ?_⟩ <;> decide +kernel

end T11b

namespace T12

def pk (op : Nat) (w : W256) (src : BitVec 16 := epCluster 3 0) (dest : BitVec 16 := epCinch 0) : Packet := { opcode := BitVec.ofNat 8 op, ctx := 5, dest, src, tag := 77, dmod := busy.moduleId, smod := busy.moduleId, data := [w, 0] }
def rr (a : Nat) (len := 4) : Packet := { opcode := 0x30, dest := epIo 0 9, src := epCluster 3 0, tag := 77, addr := BitVec.ofNat 48 a, ctx := 5, len := BitVec.ofNat 7 len, dmod := busy.moduleId, smod := busy.moduleId, data := [0x123456789ABCDEF] }
def W (op : Nat) (vid := 0x35) (target := 0x0943) (kind := 0) (cond := 0) (cookie := 0) (gate := false) (status := 0) (gen := 0) (value := 0) : W256 := cinchWord op value cookie target kind cond gate status gen vid
def wt (vid := 0x35) (cond := 0) (comp := 100) (kind := 0) (cookie := 0) (src := epCluster 3 0) : CinchWatch := { ctx := 5, vid, cond, comparand := BitVec.ofNat 64 comp, src, smod := busy.moduleId, wkind := kind, wtarget := 0x43, cookie := BitVec.ofNat 32 cookie, gate := false }
def un (f : CinchUnit → CinchUnit := id) (u := 0) : State := { busy with cinch := [(u, f { values := [(0x75, 90)], poison := [0x76], xlt := [(128*5+3, 0x80000007)] })] }
def qd (d : Nat) (src : BitVec 16) : Delivery := ⟨pk 0x38 (W 9) src, d⟩
def crowd (l : List Delivery) : State := { (un) with mesh := { (un).mesh with delivered := l } }
def full : State := un fun u => {u with watches := List.replicate 8192 (wt 0x36)}
def xs (i : Nat) (x : SMap W32) : State := { (un fun u => {u with xlt := x}) with pages := [(pgCinch 0, { regs := [(0x40, i)] , counters := [(7, 4)]})] }
def z9 : State := { (un fun u => {u with busy := true, watches := [{wt (kind := 2) with wtarget := 3}, {wt (kind := 2) with wtarget := 4}]}) with pages := [(pgCinch 0, { regs := [(0x4C, 0x39)] , counters := [(7, 4)]})] }

theorem test_premises_register_packets_and_mirrors :
    (accessOk (regAddr (rr (16 * 4096 + 20))) 4 = true) ∧
    (regAddr (rr (16 * 4096 + 20)) = 4096 * 16 + 20 ∧
        let u' := busy.receive (rr (16 * 4096 + 20));
        u'.eventOpen (requesterOf (rr (16 * 4096 + 20))) 16 = true) := by
  refine ⟨?_, ?_⟩ <;> decide +kernel

theorem test_premises_cinch_units_answer :
    (let w' := cpWord (pk 56 (W 9));
      let u' := unitOf (cpVid w');
      let x' := un.cinchUnit u';
      x'.physical (pk 56 (W 9)).ctx.toNat (cpVid w') = some 117 ∧ un.cinchTurn (pk 56 (W 9)) = true ∧ x'.watches = []) ∧
    (let w' := cpWord (pk 58 (W 1000 2101));
      let u' := unitOf (cpVid w');
      (un.cinchUnit u').physical (pk 58 (W 1000 2101)).ctx.toNat (cpVid w') = none ∧ un.cinchTurn (pk 58 (W 1000 2101)) = true) ∧
    ((crowd [qd 400 (epCluster 3 0), qd 400 (epCluster 1 0)]).cinchTurn (pk 56 (W 9)) = false) ∧
    (un.cinchTurn (pk 61 (W 65536)) = true ∧ cpOperand (cpWord (pk 61 (W 65536))) % 65536 = 0) ∧
    (8192 ≤ (full.cinchUnit (unitOf (cpVid (cpWord (pk 59 (W 100)))))).watches.length) ∧
    ((un.cinchUnit (unitOf (cpVid (cpWord (pk 59 (W 100)))))).watches = [] ∧
        (un.cinchUnit (unitOf (cpVid (cpWord (pk 59 (W 100)))))).poisoned 117 = false ∧
          condHolds (cpCond (cpWord (pk 59 (W 100)))) ((un.cinchUnit (unitOf (cpVid (cpWord (pk 59 (W 100)))))).value 117)
              (BitVec.ofNat 64 (cpOperand (cpWord (pk 59 (W 100))))) =
            false) ∧
    ((un.cinchUnit (unitOf (cpVid (cpWord (pk 59 (W 90)))))).watches = [] ∧
        (un.cinchUnit (unitOf (cpVid (cpWord (pk 59 (W 90)))))).poisoned 117 = false ∧
          condHolds (cpCond (cpWord (pk 59 (W 90)))) ((un.cinchUnit (unitOf (cpVid (cpWord (pk 59 (W 90)))))).value 117)
                (BitVec.ofNat 64 (cpOperand (cpWord (pk 59 (W 90))))) =
              true ∧
            cpKind (cpWord (pk 59 (W 90))) ≠ 2) ∧
    (∀ (y : CinchWatch),
        y ∈ (un.cinchUnit (unitOf (cpVid (cpWord (pk 60 (W 0 53 2371 0 0 7)))))).watches →
          (fun y =>
              y.ctx = (pk 60 (W 0 53 2371 0 0 7)).ctx.toNat ∧
                y.vid = cpVid (cpWord (pk 60 (W 0 53 2371 0 0 7))) ∧
                  y.src = (pk 60 (W 0 53 2371 0 0 7)).src ∧
                    y.smod = (pk 60 (W 0 53 2371 0 0 7)).smod ∧
                      (cpCookie (cpWord (pk 60 (W 0 53 2371 0 0 7))) = 0 ∨
                        BitVec.toNat y.cookie = cpCookie (cpWord (pk 60 (W 0 53 2371 0 0 7)))))
            y) ∧
    ((xs 17 []).ctxRuns ((xs 17 []).regOf (pgCinch ↑0) 64 / 128) = false ∧
        ¬(bitAt (2147483649#32).toNat 31 = true ∧
            (List.any ((xs 17 []).cinchUnit ↑0).xlt fun e =>
                e.fst != (xs 17 []).regOf (pgCinch ↑0) 64 && bitAt (BitVec.toNat e.snd) 31 &&
                  field (BitVec.toNat e.snd) 10 0 == field (2147483649#32).toNat 10 0) =
              true)) ∧
    ((xs (5 * 128 + 3) []).ctxRuns ((xs (5 * 128 + 3) []).regOf (pgCinch ↑0) 64 / 128) = true) ∧
    ((xs 17 [(18, 2147483649#32)]).ctxRuns ((xs 17 [(18, 2147483649#32)]).regOf (pgCinch ↑0) 64 / 128) = false ∧
        bitAt (2147483649#32).toNat 31 = true ∧
          (List.any ((xs 17 [(18, 2147483649#32)]).cinchUnit ↑0).xlt fun e =>
              e.fst != (xs 17 [(18, 2147483649#32)]).regOf (pgCinch ↑0) 64 && bitAt (BitVec.toNat e.snd) 31 &&
                field (BitVec.toNat e.snd) 10 0 == field (2147483649#32).toNat 10 0) =
            true) ∧
    ((z9.cinchUnit ↑0).busy = true ∧ (z9.cinchUnit ↑0).held = []) := by
  refine ⟨?_, ?_, ?_, ?_, ?_, ?_, ?_, ?_, ?_, ?_, ?_, ?_⟩ <;> decide +kernel

end T12

namespace T12b

def bytesOf (w n : Nat) : List Byte := (List.range n).map fun i => BitVec.ofNat 8 (w / 2^(8*i))
def cores8 : CoreState := { slots := [(2, BitVec.ofNat 512 (2^63 + 3 * 2^5))], queues := [(1, [⟨{payload := 4, fold := 2}, 300, 0⟩])], gates := 2 }
def ce (op : Nat) (more : Nat := 0) (kind := 0) (target := 330) (vid := 0x35) : Nat := op * 2^252 + vid * 2^187 + kind * 2^235 + (if op ≥ 3 then target * 2^219 else 0) + more
def st (w : Nat) (ops : List CinchOp := []) : State :=
  let s := { busy with mem := { bytes := memWriteList [] 0x10000001020 (bytesOf w 32), granules := [(granuleOf 0x10000001000, 0x85)] }, cinch := [(0, { values := [(0x75, 90)], xlt := [(128*5+3, 0x80000007)] })] }
  (s.modCl 8 fun c => { c with cores := [(5, cores8)], cinchList := { addr := 0x10000001000, len := 96, pos := 32, record := 1, ended := false }, cinchTag := 1022, cinchOps := ops, handles := [(2, { base := 0x80000000#32 + 60 * 16384 + 0 })], arrivals := [(2, 8)] })
def o (w : Nat) (tag := 77) : CinchOp := ⟨tag, BitVec.ofNat 256 w, 32, 5⟩
def rsp (status := 0) (gen := 0) (dest := epCluster 8 0) (value := 99) (tag := 77) (vp := 0): Packet := { opcode := 0x3E, ctx := 5, dest, src := epCinch 0, tag := BitVec.ofNat 10 tag, data := [cinchWord 0 value 0 0 0 0 false status gen 0x35, 0], wordPoison := BitVec.ofNat 64 vp }
def cmdAt (s : State) (d : Nat) (place := 3) (cancel := 0) : State := { s with host := { s.host with contexts := [(5, { B.ctx with inProgress := [{ seq := 7, desc := BitVec.ofNat 1024 d, started := true, place, cancel }, { seq := 8, desc := 9 }] })] } }
def cA (s : State) (d : Nat) (cancel := 0) := (cmdAt s d 3 cancel).ctx 5 |>.inProgress.headD { seq := 0, desc := 0 }
def wk (kind := 0) (target := 330) (vid := 0x35) (gate := false) (k := 8) (vp := 0) : Packet := { opcode := 0x3F, ctx := 5, dest := if kind = 2 then epDispatch target else epCluster k 0, src := epCinch 0, data := [cinchWord 0 0x123456789 0xABCD target kind 0 gate 0 0 vid, 0], wordPoison := BitVec.ofNat 64 vp }
def wS (n : Nat) (vids : List Nat := [0x35]) : State := (st 0).modCl 8 fun c => { c with watchedVids := vids, heldWakes := List.replicate n ⟨5, 1, { fold := 2 }, true, 0⟩ }
def z2 := ((wS 0).modCl 8 fun c => { c with heldWakes := [⟨5, 1, { fold := 2 }, false, 0⟩] })
def rl (gen : Nat) (k := 8) : Packet := { opcode := 0x3F, ctx := 5, dest := epCluster k 0, src := epCinch 0, data := [cinchWord 0 0 0 0 3 0 false 0 gen 0x35, 0] }
def bw (gen : Nat) (kind := 0) (vid := 0x35) (t := 330) : BarrierWaiter := { vid, gen, kind, target := t, gate := true }
def bS : State := (wS 1).modCl 8 fun c => { c with barriers := [bw 6, bw 7, bw 8, bw 5 1 0x35 2, bw 7 0 0x36, bw 7] }
def z7 := ((wS 0).modCl 8 fun c => { c with retries := [(wk, 18), (rl 7, 18)] })
def z8 := ((wS 0).modCl 8 fun c => { c with retries := [(wk, 17), (rl 7, 18)] })

theorem test_premises_clusters_use_cinches :
    (let c' := (st (ce 1 (5 * 2 ^ 64))).cl ↑8;
      let l' := c'.cinchList;
      let f' := (st (ce 1 (5 * 2 ^ 64))).fetchBytes ((st (ce 1 (5 * 2 ^ 64))).taskCtx ↑8) 0 (l'.addr + l'.pos) 32;
      let w' := ofBytes (List.map (fun x => x.fst) f'.bytes);
      l'.ended = false ∧
        (st (ce 1 (5 * 2 ^ 64))).halts ↑8 = false ∧
          c'.cinchOps.length < 8 ∧
            l'.pos + 32 ≤ l'.len ∧
              f'.status = 0 ∧
                (f'.bytes.any fun x => x.snd) = false ∧
                  f'.s.ceOk (↑8) w' = true ∧ c'.waitMet (bitAt w' 251) (field w' 250 245) (field w' 63 32) = true ∧ ceOp w' ≠ 4) ∧
    (let c' := (st (ce 3 (5 * 2 ^ 64 + 2 ^ 237 + 2 * 2 ^ 217))).cl ↑8;
      let l' := c'.cinchList;
      let f' :=
        (st (ce 3 (5 * 2 ^ 64 + 2 ^ 237 + 2 * 2 ^ 217))).fetchBytes ((st (ce 3 (5 * 2 ^ 64 + 2 ^ 237 + 2 * 2 ^ 217))).taskCtx ↑8) 0
          (l'.addr + l'.pos) 32;
      let w' := ofBytes (List.map (fun x => x.fst) f'.bytes);
      l'.ended = false ∧
        (st (ce 3 (5 * 2 ^ 64 + 2 ^ 237 + 2 * 2 ^ 217))).halts ↑8 = false ∧
          c'.cinchOps.length < 8 ∧
            l'.pos + 32 ≤ l'.len ∧
              f'.status = 0 ∧
                (f'.bytes.any fun x => x.snd) = false ∧
                  f'.s.ceOk (↑8) w' = true ∧
                    c'.waitMet (bitAt w' 251) (field w' 250 245) (field w' 63 32) = true ∧ ceOp w' ≠ 4 ∧ ceOp w' = 3) ∧
    (epKind (rsp 2).dest = 0 ∧
        let k' := epNumber (rsp 2).dest;
        let st' := cpStatus (cpWord (rsp 2));
        firstSome (fun o => o.tag == (rsp 2).tag.toNat) ((st 0 [o (ce 1) 76, o (ce 3)]).cl k').cinchOps = some (o (ce 3)) ∧
          st' = 2 ∧ st' ≠ 0) ∧
    (epKind rsp.dest = 0 ∧
        let k' := epNumber rsp.dest;
        let st' := cpStatus (cpWord rsp);
        let w' := (o (ce 3 (2 ^ 244 + 2 * 2 ^ 238))).entry.toNat;
        firstSome (fun o => o.tag == rsp.tag.toNat) ((st 0 [o (ce 1) 76, o (ce 3 (2 ^ 244 + 2 * 2 ^ 238))]).cl k').cinchOps =
            some (o (ce 3 (2 ^ 244 + 2 * 2 ^ 238))) ∧
          st' ≠ 2 ∧ st' = 0 ∧ bitAt w' 244 = true) ∧
    (epKind (rsp 0 17).dest = 0 ∧
        let k' := epNumber (rsp 0 17).dest;
        let st' := cpStatus (cpWord (rsp 0 17));
        let w' := (o (ce 4 (2 ^ 244 + 2 * 2 ^ 238 + 2 ^ 216 + 5 * 2 ^ 199))).entry.toNat;
        firstSome (fun o => o.tag == (rsp 0 17).tag.toNat)
              ((st 0 [o (ce 1) 76, o (ce 4 (2 ^ 244 + 2 * 2 ^ 238 + 2 ^ 216 + 5 * 2 ^ 199))]).cl k').cinchOps =
            some (o (ce 4 (2 ^ 244 + 2 * 2 ^ 238 + 2 ^ 216 + 5 * 2 ^ 199))) ∧
          st' ≠ 2 ∧ st' = 0 ∧ ceOp w' = 4 ∧ bitAt w' 244 = true) ∧
    (epKind (rsp 1).dest = 0 ∧
        let k' := epNumber (rsp 1).dest;
        let st' := cpStatus (cpWord (rsp 1));
        firstSome (fun o => o.tag == (rsp 1).tag.toNat) ((st 0 [o (ce 1) 76, o (ce 3 (2 ^ 244 + 2 * 2 ^ 238))]).cl k').cinchOps =
            some (o (ce 3 (2 ^ 244 + 2 * 2 ^ 238))) ∧
          st' ≠ 2 ∧ st' ≠ 0) ∧
    (epKind (rsp 0 0 (epDispatch 1) 99 6).dest = 2 ∧
        let x' := (rsp 0 0 (epDispatch 1) 99 6).ctx.toNat;
        let tag' := (rsp 0 0 (epDispatch 1) 99 6).tag.toNat;
        firstSome (answersTag x' tag') ((cmdAt busy 6).ctx x').inProgress = some (cA busy 6) ∧
          (((cmdAt busy 6).ctx x').command (cA busy 6).seq).isSome = true ∧
            cpStatus (cpWord (rsp 0 0 (epDispatch 1) 99 6)) = 0 ∧ dOp (cA busy 6).desc.toNat ≠ 8) ∧
    (epKind (rsp 1 0 (epDispatch 1) 99 6 1).dest = 2 ∧
        let x' := (rsp 1 0 (epDispatch 1) 99 6 1).ctx.toNat;
        let tag' := (rsp 1 0 (epDispatch 1) 99 6 1).tag.toNat;
        firstSome (answersTag x' tag') ((cmdAt busy 7).ctx x').inProgress = some (cA busy 7) ∧
          (((cmdAt busy 7).ctx x').command (cA busy 7).seq).isSome = true ∧ cpStatus (cpWord (rsp 1 0 (epDispatch 1) 99 6 1)) = 1) ∧
    (cpKind (cpWord wk) = 0 ∧
        (wS 0).taskRuns (epNumber wk.dest) = true ∧
          ((wS 0).cl (epNumber wk.dest)).watchedVids.contains (cpVid (cpWord wk)) = true ∧
            ((wS 0).cl (epNumber wk.dest)).heldWakes.length < 32) ∧
    (cpKind (cpWord wk) = 0 ∧
        (wS 32).taskRuns (epNumber wk.dest) = true ∧
          ((wS 32).cl (epNumber wk.dest)).watchedVids.contains (cpVid (cpWord wk)) = true ∧
            32 ≤ ((wS 32).cl (epNumber wk.dest)).heldWakes.length) ∧
    (cpKind (cpWord wk) = 0 ∧
        (wS 0 []).taskRuns (epNumber wk.dest) = true ∧
          ((wS 0 []).cl (epNumber wk.dest)).watchedVids.contains (cpVid (cpWord wk)) = false) ∧
    (cpKind (cpWord (wk 2 3)) = 2) ∧
    ((z2.cl ↑8).nextWake z2.clock =
          some { core := 5, queue := 1, tok := { payload := 0#128, fold := 2#3, spare := 0#2 : Token }, gates := false : HeldWake } ∧
        let f' :=
          { core := 5, queue := 1, tok := { payload := 0#128, fold := 2#3, spare := 0#2 : Token }, gates := false :
                  HeldWake }.tok.fold.toNat;
        let u' :=
          z2.reachClock
            { core := 5, queue := 1, tok := { payload := 0#128, fold := 2#3, spare := 0#2 : Token }, gates := false : HeldWake }.ready;
        let core' :=
          (u'.core ↑8
                { core := 5, queue := 1, tok := { payload := 0#128, fold := 2#3, spare := 0#2 : Token }, gates := false :
                    HeldWake }.core).settleSlack
            u'.clock;
        cwValid (core'.word f') = true ∧
          cwCred (core'.word f')
                { core := 5, queue := 1, tok := { payload := 0#128, fold := 2#3, spare := 0#2 : Token }, gates := false :
                    HeldWake }.queue ≠
              0 ∧
            SMap.get? core'.closed
                  (pairKey
                    { core := 5, queue := 1, tok := { payload := 0#128, fold := 2#3, spare := 0#2 : Token }, gates := false :
                        HeldWake }.queue
                    f') =
                none ∧
              core'.hasPath
                  { core := 5, queue := 1, tok := { payload := 0#128, fold := 2#3, spare := 0#2 : Token }, gates := false :
                      HeldWake }.queue
                  f' =
                false) ∧
    (let k' := epNumber (rl 7).dest;
      bS.taskRuns k' = true) ∧
    (let k' := epNumber (rl 7 2).dest;
      bS.taskRuns k' = false) ∧
    ((z7.cl ↑8).retries = [(wk, 18), (rl 7, 18)]) ∧
    ((z8.cl ↑8).retries = [(wk, 17), (rl 7, 18)] ∧ 17 ≤ z8.beats) := by
  refine ⟨?_, ?_, ?_, ?_, ?_, ?_, ?_, ?_, ?_, ?_, ?_, ?_, ?_, ?_, ?_, ?_, ?_⟩ <;> decide +kernel

end T12b

namespace T13

def bytesOf (w n : Nat) : List Byte := (List.range n).map fun i => BitVec.ofNat 8 (w / 2^(8*i))
def cmdAt (s : State) (d : Nat) : State := { s with host := { s.host with contexts := [(5, { B.ctx with inProgress := [{ seq := 7, desc := BitVec.ofNat 1024 d }, { seq := 8, desc := 9 }] })] } }
def ust (s : State) (x seq op : Nat) : State := match s.startCmd x (BitVec.ofNat 32 seq) op with | some (_, u) => u | none => s
def te (work := 0x10000002000) (len := 400) : Nat := work + len * 2^64 + 0x10000003000 * 2^128 + 64 * 2^192 + 0x10000004000 * 2^256 + 96 * 2^320 + 5 * 2^384 + (17 * 2^448 + 2^(448+24)) + ((List.range 15).map fun r => 2^(448+32*r+24)).sum - 2^(448+24)
def mm (es : List Nat) (s : State := busy) : State := { s with mem := { bytes := memWriteList [] 0x10000001000 (es.flatMap fun e => bytesOf e 128), granules := [(granuleOf 0x10000001000, 0x85)] } }
def rt (r serve : Nat) : Nat := 4 + r * 2^32 + 0x10000001000 * 2^64 + 2^112 + serve * 2^208 + 300 * 2^128 + 200 * 2^144 + 3050 * 2^160 + (2 * 2^28 + 3 * 2^16 + 9 * 2^4 + 2) * 2^224
def rg (st : RegionState) (s : State) (tk : Option Machine.Task := none) : State := {s with regions := [(3, { B.region with state := st, task := tk}), (6, { B.region with clusters := [50], task := none })]}
def A (d : Nat) (st : RegionState) (es := [te, te, te]) (tk : Option Machine.Task := none) := cmdAt (mm es (rg st busy tk)) d
def es3 : List (BitVec 1024) := List.replicate 3 (BitVec.ofNat 1024 te)
def s1 := A (rt 3 1) .loaded
def tk0 : Machine.Task := { B.task with started := false, phase := .candidate, seq := 8, since := 3000, table := 0x10000001000, peak := 300, mean := 200 }
def S (tk : Machine.Task) (s : State := mm [te,te,te]) : State := rg .loaded s (some tk)
def Q : GrantRequest := { ctx := 5, region := 3, peak := 350, mean := 210, notBefore := 3050, lc := true }
def tka : Machine.Task := { tk0 with phase := .asked, entries := es3 }
def sg (q : GrantRequest) (tk := tka) : State := { (S tk) with bridle := { request := some q, announced := 9000, bookings := [⟨5, 9, 500, 200, 3000⟩] } }
def q2 := { Q with granted := some 3100#48 }
def tkb : Machine.Task := { tka with lc := false, ctx := 5 }
def sb : State := { (sg Q tkb) with regions := [(3, { B.region with state := .loaded, task := some tkb}), (6, { B.region with clusters := [50], state := .loaded, task := some {tk0 with ctx := 6}})] }
def sp : State := { sb with host := { sb.host with contexts := [(5, { B.ctx with probing := some (0, 442368) })] }, mem := { sb.mem with granules := [(0, 0x85), (55296, 0x85), (55297, 0x86)] } }
def tg : Machine.Task := { tka with phase := .granted, start := 3016 }
def ss : State := ({ (S tg) with cals := [(pgClCtrl 0, [⟨3, startArg tg, 0, 0, 3016⟩])] }).modCl 0 fun c => { c with activeFold := 3, lateTokens := 8, arrivals := [(2, 3)] }
def E1 : Ending := { status := 9, list := 2 }
def te1 : Machine.Task := { tka with started := true, phase := .running, start := 3000, ending := some E1, endBeat := 3015 }
def sr (tk : Machine.Task) (s : State := busy) : State := cmdAt (rg .running s (some tk)) 4
def te0 := { te1 with seq := 7, endBeat := 3014 }
def tr : Machine.Task := { tka with started := true, phase := .running, start := 3000, startBeats := 3, limit := 4, seq := 7 }
def dn : State := (sr tr).modCls [0,1,8] fun c => { c with work := { ended := true }, stitchList := { ended := true }, cinchList := { ended := true }, lateTokens := 4 }
def nd := dn.modCl 8 fun c => { c with work := { len := 9, ended := false } }
def tst (n : Nat) : Machine.Task := { te0 with stopped := true, phase := .stopping, ending := some {E1 with status := n} }
def st (n : Nat) : State := (sr (tst n)).modCl 8 fun c => { c with lateTokens := 6 }
def z5 := ((st 8).modCl 8 fun c => { c with outstanding := [⟨0, 3, 7, 0x1000, 2, 300, false, false, 4⟩] })
def z6 := (nd.modCl 8 fun c => c)

theorem test_premises_tasks_are_granted :
    ((A (rt 4 0) RegionState.loaded).startCmd (↑5) (7#32) 4 = some (rt 4 0, ust (A (rt 4 0) RegionState.loaded) 5 7 4) ∧
        let r' := dRegion (rt 4 0);
        (A (rt 4 0) RegionState.loaded).owns (↑5) r' = false) ∧
    ((A (rt 3 0) RegionState.faulted).startCmd (↑5) (7#32) 4 = some (rt 3 0, ust (A (rt 3 0) RegionState.faulted) 5 7 4) ∧
        let r' := dRegion (rt 3 0);
        let g' := (A (rt 3 0) RegionState.faulted).region r';
        (A (rt 3 0) RegionState.faulted).owns (↑5) r' = true ∧ g'.state ≠ RegionState.loaded) ∧
    ((A (rt 3 0) RegionState.loaded [] (some task)).startCmd (↑5) (7#32) 4 =
          some (rt 3 0, ust (A (rt 3 0) RegionState.loaded [] (some task)) 5 7 4) ∧
        let r' := dRegion (rt 3 0);
        let g' := (A (rt 3 0) RegionState.loaded [] (some task)).region r';
        (A (rt 3 0) RegionState.loaded [] (some task)).owns (↑5) r' = true ∧ g'.task.isSome = true ∧ g'.state = RegionState.loaded) ∧
    (s1.startCmd (↑5) (7#32) 4 = some (rt 3 1, ust s1 5 7 4) ∧
        let r' := dRegion (rt 3 1);
        let g' := s1.region r';
        s1.owns (↑5) r' = true ∧ g'.state = RegionState.loaded ∧ g'.task = none ∧ dServe (rt 3 1) = true) ∧
    (tk0.serve = false) ∧
    ((sg q2).bridle.request = some q2 ∧
        q2.granted = some 3100#48 ∧
          let g' := (sg q2).region q2.region;
          g'.task = some tka) ∧
    ((sb.taskCandidates.any fun p => p.snd.lc) = true ∧ tkb.lc = false) ∧
    (tkb.ctx = ↑5) ∧
    (sb.pageOpen 3 (pgContext ↑5) = true ∧ (sb.ctx ↑5).probing = none) ∧
    ((sp.ctx ↑5).probing = some (0, 442368)) := by
  refine ⟨?_, ?_, ?_, ?_, ?_, ?_, ?_, ?_, ?_, ?_⟩ <;> decide +kernel

theorem test_premises_tasks_start_and_end :
    (let g' := ss.region ↑3;
      g'.task = some tg ∧
        tg.phase = TaskPhase.granted ∧
          tg.started = false ∧ ss.inOrder tg.start (actionRank 3) = true ∧ g'.state = RegionState.loaded ∧ g'.clusters.Nodup) ∧
    (((sr te1).region ↑3).task = some te1 ∧ te1.started = true ∧ te1.stopped = false ∧ te1.ending = some E1) ∧
    (((dn.region ↑3).clusters.all fun k =>
            (((dn.reachBoundary 4096).settleArbs (dn.region ↑3).clusters).cl k).taskDone
              ((dn.reachBoundary 4096).settleArbs (dn.region ↑3).clusters).clock) =
          true ∧
        ((dn.ctx tr.ctx).command tr.seq).isSome = true) ∧
    (((nd.region ↑3).clusters.all fun k =>
          (((nd.reachBoundary 4096).settleArbs (nd.region ↑3).clusters).cl k).taskDone
            ((nd.reachBoundary 4096).settleArbs (nd.region ↑3).clusters).clock) =
        false) ∧
    ((((st 9).region ↑3).clusters.all fun k => ((st 9).cl k).settled) = true ∧
        (((st 9).ctx (tst 9).ctx).command (tst 9).seq).isSome = true) ∧
    (((z5.region ↑3).clusters.all fun k => (z5.cl k).settled) = false) ∧
    ((z6.region ↑3).task = some tr ∧
        tr.started = true ∧
          tr.ending = none ∧
            tr.limit ≠ 0 ∧
              let g' := z6.region ↑3;
              let target' := tr.startBeats + 2 ^ tr.limit;
              let u' :=
                (if z6.beats < target' then z6.advance (4096 * (target' - z6.beats) - z6.now % 4096) else z6).settleArbs g'.clusters;
              (g'.clusters.all fun k => (u'.cl k).taskDone u'.clock) = false) := by
  refine ⟨?_, ?_, ?_, ?_, ?_, ?_, ?_⟩ <;> decide +kernel

end T13

namespace T14

def at_ (p : BootPhase) (f : State → State := id) : State := f { busy with boot := { busy.boot with phase := p } }
def slotOk : FlashSlot := { structureOk := true, signatureOk := true, requiredOk := true, digestsOk := true }
def rom (a b : Bool) (pref := 0) : State := { busy with boot := { busy.boot with phase := .rom, slotA := { slotOk with digestsOk := a }, slotB := { slotOk with signatureOk := b }, record0 := { valid := true, gen := 4, pref } } }
def z2 := (at_ .passed fun s => { s with pages := [(pgTrunk 0, { regs := [(0x40, 0x83)] }), (pgCxl, { inReset := true })], boot := { s.boot with perst := true } })
def z4 := (at_ .ioEnabled fun s => { s with boot := { s.boot with mgmt0Halted := true } })
def z5 := (at_ .ioEnabled fun s => { s with boot := { s.boot with resetPending := true, fatalLow := true } })
def rd : State := at_ .ioEnabled fun s => { s with ready := { s.ready with msd := [1], cd := [2, 3], down := [4] } }
def z8 := (at_ .ioEnabled fun s => { s with custody := { s.custody with window := 5 }})
def z9 := (at_ .released fun s => { s with boot := { s.boot with fprog := true }})
def big : State := { busy with cinch := [(0, { values := [(3, 4)] })], irq := { }, flights := [], cals := [(pgTrunk 1, [⟨5, 0, 0, 0, 3016⟩]), (pgClCtrl 0, [⟨5, 0, 0, 0, 3016⟩])], wakes := [(1, { credit := 3 })] , ready := { busy.ready with cd := [0,1,2], msd := [0,2] } }
def z10 : State := { big with pages := (pgMgmt, page) :: (pgFlash, page) :: big.pages }

theorem test_premises_module_boots :
    ((at_ BootPhase.off).boot.phase = BootPhase.off ∧ (at_ BootPhase.off).spares.entries = []) ∧
    ((at_ BootPhase.released).boot.phase = BootPhase.released) ∧
    ((rom true true).boot.fprog = false ∧
        (rom true true).boot.reverify = false ∧
          (rom true true).boot.phase = BootPhase.rom ∧
            (rom true true).boot.current?.isSome = true ∧
              (rom true true).boot.record.trial = false ∧
                let p' := (rom true true).boot.record.pref;
                (rom true true).boot.passes p' = true) ∧
    ((rom false true).boot.fprog = false ∧
        (rom false true).boot.reverify = false ∧
          (rom false true).boot.phase = BootPhase.rom ∧
            (rom false true).boot.current?.isSome = true ∧
              (rom false true).boot.record.trial = false ∧
                let p' := (rom false true).boot.record.pref;
                (rom false true).boot.passes p' = false ∧ (rom false true).boot.passes (1 - p') = true) ∧
    ((rom false false 1).boot.fprog = false ∧
        (rom false false 1).boot.reverify = false ∧
          (rom false false 1).boot.phase = BootPhase.rom ∧
            (rom false false 1).boot.current?.isSome = true ∧
              (rom false false 1).boot.record.trial = false ∧
                let p' := (rom false false 1).boot.record.pref;
                (rom false false 1).boot.passes p' = false ∧ (rom false false 1).boot.passes (1 - p') = false) ∧
    (z2.boot.phase = BootPhase.passed) ∧
    (z4.boot.mgmtStalled = true) ∧
    ((at_ BootPhase.ioEnabled).boot.phase = BootPhase.ioEnabled ∧
        (at_ BootPhase.ioEnabled).boot.perst = false ∧
          (at_ BootPhase.ioEnabled).boot.mgmtStalled = false ∧ (at_ BootPhase.ioEnabled).boot.resetPending = false) ∧
    (z5.boot.phase = BootPhase.ioEnabled ∧ z5.boot.perst = false ∧ z5.boot.mgmtStalled = false ∧ z5.boot.resetPending = true) ∧
    (decide (rd.boot.phase = BootPhase.ioEnabled ∨ rd.boot.phase = BootPhase.released) = true ∧ rd.ready.msd.contains ↑3 = false) ∧
    (decide (rd.boot.phase = BootPhase.ioEnabled ∨ rd.boot.phase = BootPhase.released) = true ∧
        rd.ready.cd.contains ↑5 = false ∧ rd.ready.down.contains ↑5 = false) ∧
    (decide (rd.boot.phase = BootPhase.ioEnabled ∨ rd.boot.phase = BootPhase.released) = true ∧
        rd.ready.lpddr = false ∧ rd.spares.packages = []) ∧
    (decide (rd.boot.phase = BootPhase.ioEnabled ∨ rd.boot.phase = BootPhase.released) = true) ∧
    ((at_ BootPhase.rom).boot.fprog = false ∧ (at_ BootPhase.rom).boot.phase = BootPhase.rom) ∧
    (z8.boot.fprog = false ∧ z8.boot.phase = BootPhase.ioEnabled) ∧
    (z9.boot.fprog = true) := by
  refine ⟨?_, ?_, ?_, ?_, ?_, ?_, ?_, ?_, ?_, ?_, ?_, ?_, ?_, ?_, ?_, ?_⟩ <;> decide +kernel

theorem test_premises_resets_clear_their_islands :
    (big.boot.phase = BootPhase.released) ∧
    ((at_ BootPhase.rom).boot.phase ≠ BootPhase.released ∧ (at_ BootPhase.rom).boot.phase ≠ BootPhase.ioEnabled) ∧
    (z10.boot.sorrelUp = true) ∧
    (Island.control ≠ Island.time ∧ Island.control ≠ Island.junction ∧ Island.control ≠ Island.management 1) ∧
    (Island.cxl ≠ Island.time ∧ Island.cxl ≠ Island.junction ∧ Island.cxl ≠ Island.management 1) ∧
    ((pageInfo (BitVec.ofNat 16 (pgClCtrl 0)).toNat).isSome = true ∧ (BitVec.ofNat 16 (pgClCtrl 0)).toNat ≠ pgMgmt) := by
  refine ⟨?_, ?_, ?_, ?_, ?_, ?_⟩ <;> decide +kernel

end T14

namespace T14b

def slotOk : FlashSlot := { structureOk := true, signatureOk := true, requiredOk := true, digestsOk := true }
def up (f : State → State := id) : State := f { busy with custody := { busy.custody with strap := true }, ident := { busy.ident with ok := true, akNext := 5, akReserved := 256, dikNext := 920 } }
def dn : State := up fun s => { s with custody := { s.custody with strap := false } }
def z5 := (up fun s => {s with ident := {s.ident with akNext := 2^40}})
def tr (a : Nat) (rf : Bool) : State := up fun s => { s with boot := { s.boot with trial := true, runSlot := 1, slotB := { slotOk with svn := a, raiseFloor := rf }, record0 := { valid := true, gen := 7, floor := 4, trial := true }, record1 := { valid := true, gen := 6 } } }
def stalled : State := up fun s => { s with boot := { s.boot with mgmt0Halted := true } }
def opened : State := up fun s => { s with custody := { s.custody with window := 60000, openedAt := 3 } }
def sp (f : Spares → Spares := id) : State := { busy with spares := f { entries := [{ kind := 1, loc := coreLoc 3 4 5, beat := 4 }, { kind := 3, loc := 7, beat := 3 }] } }
def sA : State := sp
def sB := (sA.modCl 0 fun c => { c with coreRetired := [(5, 3)], skipRow := [(5, 3)] })
def c05 : CoreId := ⟨0, 2, 5⟩
def sL : State := { sA with harness := { sA.harness with links := [(9, { mode := .up, retired := 1 })] } }
def z12 : State := { sA with clusters := [] }
def rt (u : RetireUnit) : State := { sB with spares := { sB.spares with pending := [u, u] }, regions := [], clock := 4100 }
def sT : State := { sA with regions := [] }
def z15 : State := { sT with tests := { running := [(0, 8)] } }
def sF : State := { sA with mesh := { routers := [(3, { held := [{ packet := { opcode := 2, data := [4, 5] }, input := 4 }] })] } }

theorem test_premises_identity_and_custody_act :
    (up.ident.ok = true ∧ up.ident.akNext < 2 ^ 40) ∧
    (2 ^ 40 ≤ z5.ident.akNext) ∧
    (dn.custody.present = false) ∧
    (decide (up.custody.present = true) = true ∧ decide (up.ident.ok = true) = true ∧ up.ident.dikNext < 1024) ∧
    (decide (up.custody.present = true) = true ∧ decide (up.ident.ok = true) = true) ∧
    (decide (up.custody.present = true) = true ∧ decide (BitVec.toNat up.boot.record.gen + 1 < 2 ^ 32) = true ∧ (1023#16).toNat < 1024) ∧
    (↑16 = 16 ∧ (tr 9 true).pageOpen 16 pgFlash = true ∧ (tr 9 true).boot.trial = true) ∧
    (↑16 = 16 ∧ (tr 9 false).pageOpen 16 pgFlash = true ∧ (tr 9 false).boot.floor < (7#10).toNat) ∧
    (((tr 9 false).page pgFlash).inReset = false ∧ (3#10).toNat ≠ (tr 9 false).boot.floor ∧ (tr 9 false).custody.present = true) ∧
    ((dn.page pgFlash).inReset = false ∧ (3#10).toNat ≠ dn.boot.floor ∧ dn.custody.present = false) ∧
    (dn.boot.mgmtStalled = false ∧ dn.custody.present = false ∧ dn.custody.sealOpen = false) ∧
    (up.custody.sealOpen = false) ∧
    (stalled.boot.mgmtStalled = true) ∧
    (opened.custody.window ≠ 0) := by
  refine ⟨?_, ?_, ?_, ?_, ?_, ?_, ?_, ?_, ?_, ?_, ?_, ?_, ?_, ?_⟩ <;> decide +kernel

theorem test_premises_faults_are_spared :
    (sA.spares.pending.contains (RetireUnit.core c05.k c05.j (⟨(sA.cl ↑c05.k).physRow ↑c05.i ↑c05.j, (by decide +kernel)⟩ : Fin 33)) = false ∧
        (sA.cl ↑c05.k).retired = false) ∧
    (sA.spares.pending.contains (RetireUnit.cluster 0) = false ∧ (sA.cl ↑0).retired = false) ∧
    (sA.spares.rowFaults = []) ∧
    ((sA.spares.locs 4).contains (channelLoc ↑3 ↑4) = false) ∧
    ((sA.spares.locs 8).contains ↑15 = false) ∧
    (bitAt (sA.link ↑47).retired.toNat ↑3 = false) ∧
    (bitAt (sL.link ↑9).retired.toNat ↑3 = false ∧ (sL.link ↑9).mode = LinkMode.up) ∧
    ((z12.core (↑{ k := 0, i := 1, j := 1 : CoreId }.k) (coreNum { k := 0, i := 1, j := 1 : CoreId })).parityErrors = []) ∧
    ((rt (RetireUnit.cluster 0)).spares.pending.contains (RetireUnit.cluster 0) = true ∧
        (rt (RetireUnit.cluster 0)).regionOf? (retireOf (RetireUnit.cluster 0)) = none) ∧
    (isMgmtReq 16 = true ∧
        sT.pageOpen 16 pgMgmt = true ∧
          sT.regionOf? ↑0 = none ∧
            (sT.cl ↑0).retired = false ∧ (sT.tests.running.any fun t => t.fst == ↑0) = false ∧ sT.tests.running.length < 8) ∧
    (firstSome (fun t => t.fst == ↑0) z15.tests.running = some (↑0, 8)) ∧
    (((sA.cl ↑0).row ↑0 ↑7).poison.getLsbD ↑3 = false) ∧
    (let u' := (32773#16).toNat / 32768;
      let v' := (32773#16).toNat % 32768;
      (sA.cinchUnit u').poisoned v' = false) ∧
    (↑1 <
        ((sF.router 3).held.headD
                {
                  packet :=
                    { opcode := 0#8, ctx := 0#6, dest := 0#16, src := 0#16, tag := 0#10, dmod := 0#14, smod := 0#14, hint := 0#2,
                      addr := 0#48, len := 0#7, status := 0#8, rtag := 0#16, count := 0#16, sop := 0#2, stype := 0#2, rsvRows := 0#14,
                      placeRow := 0#13, wordPoison := 0#64 : Packet },
                  input := 0 : HeldPacket }).packet.data.length) := by
  refine ⟨?_, ?_, ?_, ?_, ?_, ?_, ?_, ?_, ?_, ?_, ?_, ?_, ?_, ?_⟩ <;> decide +kernel

end T14b

namespace T15
def queued (c : Instr) : State := { busy with pending := [c, .windowEnd] }

theorem test_premises_queue_keeps_its_order : ∃ t, step (queued .sealIntact) = .next t ∧ t.pending = [.windowEnd] := ⟨_, rfl, rfl⟩

theorem test_premises_steps_keep_memory_canonical :
    (memWf (queued .sealIntact).mem.bytes ∧ memWf (queued .sealIntact).host.bytes) ∧ ∃ t, step (queued .sealIntact) = .next t := by
  refine ⟨?_, ⟨_, rfl⟩⟩
  decide +kernel

theorem test_premises_commands_keep_their_frames : ∃ t, exec .sealIntact busy = .next t := ⟨_, rfl⟩
end T15

end Sys2Proof.Tests
end

section
/-! The queue and the common registers of a page (spec/02): what the commands on them do where the page answers, and the statements
of the scope chapter. -/
namespace Sys2Proof.Machine
namespace State
variable (s : State)

/-! ### Settling an arbiter and withdrawing an offer leave the rest of the module as it is -/

@[simp] theorem settledFor_clock (n : Nat) : (s.settledFor n).clock = s.clock := (s.settledFor_frame n).2 .clock (by decide)
@[simp] theorem settledFor_out (n : Nat) : (s.settledFor n).out = s.out := (s.settledFor_frame n).2 .out (by decide)
@[simp] theorem settledFor_mt (n : Nat) : (s.settledFor n).mt = s.mt := (s.settledFor_frame n).2 .mt (by decide)
@[simp] theorem settledFor_ident (n : Nat) : (s.settledFor n).ident = s.ident := (s.settledFor_frame n).2 .ident (by decide)

@[simp] theorem settledFor_heldLevel (n m : Nat) : (s.settledFor n).heldLevel m = s.heldLevel m := by simp [heldLevel]

@[simp] theorem lapse_page (n m : Nat) : (s.lapse n).page m = s.page m := by
  rw [page, (s.lapse_frame n).2 .pages (by decide), page]

@[simp] theorem emit_page (o : Output) (m : Nat) : (s.emit o).page m = s.page m := rfl

theorem onlyPages_modPage (n : Nat) (f : Page → Page) : OnlyPages [n] s (s.modPage n f) := fun m h =>
  s.page_modPage_ne f (by simpa using h)

/-! ### Whether a page answers (R20 to R22, R33, R45) -/

variable {s} {req : Req} {n : Nat}

theorem answers_iff : s.answers req n = true ↔
    (pageInfo n).isSome = true ∧ (s.page n).inReset = false ∧ reachesPage req n = true ∧ s.isIdlePage n = false := by
  simp [answers, and_assoc]

theorem answers_of_eventOpen (h : s.eventOpen req n = true) : s.answers req n = true := by
  rw [eventOpen, Bool.and_eq_true] at h
  exact h.1

/-! ### Accesses -/

/-- An access of 4 bytes to an aligned word of an assigned page is none that R32 turns away. -/
theorem offPage_assigned (s : State) (req : Req) {page : BitVec 16} {off : Nat} (isWrite : Bool) (h : (pageInfo page.toNat).isSome = true)
    (hoff : off < 4096) (h4 : off % 4 = 0) : s.offPage req page off isWrite = s := by
  have hdiv : (4096 * page.toNat + off) / 4096 = page.toNat := by omega
  have hmod : (4096 * page.toNat + off) % 4096 = off := by omega
  have ok : accessOk (4096 * page.toNat + off) 4 = true := by
    have h4' : (4096 * page.toNat + off) % 4 = 0 := by omega
    simp [accessOk, hdiv, hmod, h, h4']
  rw [offPage, badAccess, if_pos ok]

/-- A write of EVENT_ENABLE (R41). -/
theorem writeAt_enable (s : State) (v : W32) {a : Nat} (ha : a = 4096 * n + 0x14) (h : s.eventOpen req n = true) :
    s.writeAt req a v = (s.modPage n fun g => { g with enable := v }).lapse n := by
  obtain ⟨assigned, running, reached, present⟩ := answers_iff.1 (answers_of_eventOpen h)
  obtain ⟨i, hi⟩ := Option.isSome_iff_exists.1 assigned
  have hdiv : a / 4096 = n := by omega
  have hmod : a % 4096 = 0x14 := by omega
  have h4 : a % 4 = 0 := by omega
  have plain : s.plainWrite req n 0x14 v = (s.modPage n fun g => { g with enable := v }).lapse n := by
    simp [plainWrite, pageBlock, hi, running, reached, present, h]
  simp only [writeAt, hdiv, hi, h4, hmod, writeReg, if_true]
  simpa [commonWrite] using plain

/-! ### CTR_CLEAR (R40) -/

/-- The meters of a page whose counters are cleared. -/
theorem get?_clearMeters (m : SMap Nat) {k : Nat} (hk : k / 256 = n) :
    (SMap.get? (m.map fun e => if e.1 / 256 = n then (e.1, 0) else e) k).getD 0 = 0 := by
  induction m with
  | nil => rfl
  | cons e m ih =>
    obtain ⟨j, v⟩ := e
    by_cases hj : j = k
    · simp [SMap.get?, hj, hk]
    · by_cases hn : j / 256 = n <;> simpa [SMap.get?, hn, hj] using ih

/-- Clearing a page's counters empties those that the page stores. -/
@[simp] theorem clearCounters_pages (s : State) (n : Nat) :
    (s.clearCounters n).pages = (s.modPage n fun g => { g with counters := [] }).pages := by
  unfold clearCounters
  dsimp only
  split <;> rfl

@[simp] theorem clearCounters_page (s : State) (n m : Nat) :
    (s.clearCounters n).page m = (s.modPage n fun g => { g with counters := [] }).page m := by
  simp only [page, clearCounters_pages]

@[simp] theorem clearCounters_mt (s : State) (n : Nat) : (s.clearCounters n).mt = s.mt := by
  unfold clearCounters
  dsimp only
  split <;> rfl

@[simp] theorem clearCounters_energy (s : State) (n : Nat) :
    (s.clearCounters n).energy = s.energy.map fun e => if e.1 / 256 = n then (e.1, 0) else e := by
  unfold clearCounters
  dsimp only
  split <;> rfl

/-- A head descriptor of an FE that counts its wait from now on has waited for no cycle (R270). -/
theorem tileWait_headAt {k u : Nat} (h : (SMap.getD (s.cl k).fes u {}).headAt = s.clock) : s.tileWait k u = 0 := by
  unfold tileWait
  dsimp only
  split
  · rfl
  · split <;> omega

/-- A cycle count that starts at the clear is at zero (R361, R295). -/
theorem cyclesSince_cleared (since : Option Nat) (t : Nat) : (since.map fun _ => t).elim 0 (t - ·) = 0 := by cases since <;> simp

/-- No condition has been counted for a cycle once the counters are cleared (R40). -/
theorem fullCycles_clearCounters (s : State) (n c : Nat) : (s.clearCounters n).fullCycles n c = 0 := by
  unfold fullCycles
  split
  case h_1 index x info => simpa [clearCounters, info] using cyclesSince_cleared _ _
  case h_2 e k info =>
    refine tileWait_headAt ?_
    simp [clearCounters, info]
  case h_3 index k info => simpa [clearCounters, info] using cyclesSince_cleared _ _
  case h_4 => rfl

theorem counterRead_clearCounters (s : State) {n c : Nat} (hc : c < 256) (notTime : ¬(n = pgMtime ∧ c = 0)) :
    (s.clearCounters n).counterRead n c = 0 := by
  unfold counterRead
  rw [if_neg notTime, fullCycles_clearCounters, clearCounters_page, page_modPage_self]
  have meter := get?_clearMeters (n := n) s.energy (k := 256 * n + c) (by omega)
  rw [← clearCounters_energy] at meter
  split
  · rfl
  · split
    case h_1 v hv =>
      have zero : v = 0 := by rwa [hv] at meter
      rw [zero]
      rfl
    case h_2 => simp [Page.counter, SMap.getD]

/-! ### COUNTER_LOW_READ (R38, R39) -/

theorem onlyPages_snapshot (s : State) (req n c : Nat) : OnlyPages [n] s (s.snapshot req n c) := s.onlyPages_modPage n _

/-- The snapshot that a read of the low word leaves is the value's high word. -/
theorem counterWord_snapshot (s : State) (req : Req) (n c : Nat) :
    (s.snapshot req.val n c).counterWord req.val n (0x804 + 8 * c) = (s.counterRead n c).toNat / 2 ^ 32 := by
  have odd : (0x804 + 8 * c) % 8 ≠ 0 := by omega
  have small : (s.counterRead n c).toNat / 2 ^ 32 < 2 ^ 32 := by omega
  rw [counterWord, if_neg odd, snapshot, page_modPage_self, SMap.getD_put_self, BitVec.toNat_ofNat, Nat.shiftRight_eq_div_pow,
    Nat.mod_eq_of_lt small]

/-! ### EVENT_LATCH_CLEAR (R9, R41) -/

/-- A condition that the state holds keeps its bit just as a level of the page does. -/
theorem clearLatch_held (g : Page) (t : Nat) (bits held : W32) :
    g.clearLatch t (bits &&& ~~~held) = { g with latch := g.latch &&& ~~~(bits &&& ~~~(g.levelRead ||| held ||| g.drivenAt t)) } := by
  have mask : bits &&& ~~~held &&& ~~~(g.levelRead ||| g.drivenAt t) = bits &&& ~~~(g.levelRead ||| held ||| g.drivenAt t) := by
    ext i
    simp only [BitVec.getElem_and, BitVec.getElem_not, BitVec.getElem_or, Bool.not_or]
    ac_rfl
  rw [Page.clearLatch, mask]

/-! ### TEL_CLEAR (R518) -/

/-- The stall counters of the cores that telemetry page `j` reads. -/
def clearStalls (j : Nat) (c : ClusterState) : ClusterState :=
  { c with cores := c.cores.map fun p => if p.1 % 32 = j then (p.1, { p.2 with stalls := [] }) else p }

theorem core_clearStalls (c : ClusterState) (j n : Nat) :
    (clearStalls j c).core n = if n % 32 = j then { c.core n with stalls := [] } else c.core n := by
  simp only [clearStalls, ClusterState.core, SMap.getD]
  induction c.cores with
  | nil => simp [SMap.get?]
  | cons p m ih =>
    obtain ⟨i, x⟩ := p
    by_cases hi : i = n
    · subst hi
      by_cases hj : i % 32 = j <;> simp [SMap.get?, hj]
    · by_cases hj : i % 32 = j <;> simpa [SMap.get?, hi, hj] using ih

end State

/-! ### What the commands on a page's common registers answer -/

section commands
variable {req : Req} {page : BitVec 16} {s : State}

theorem exec_ctrClear (h : s.pageOpen req page.toNat = true) :
    exec (.ctrClear req page) s = .next ((s.settledFor page.toNat).clearCounters page.toNat) := by
  simp only [exec, execCtrClear, h, if_true]

theorem exec_ctrClear_closed (a : (pageInfo page.toNat).isSome = true) (h : s.pageOpen req page.toNat = false) :
    exec (.ctrClear req page) s = .next s := by
  simp [exec, execCtrClear, h, State.offPage_assigned s req true a]

theorem exec_counterLowRead (n : BitVec 8) (h : s.answers req page.toNat = true) :
    exec (.counterLowRead req page n) s =
      .next (((s.settledFor page.toNat).snapshot req.val page.toNat n.toNat).emit (.readValue req.val
        (BitVec.ofNat 64 (((s.settledFor page.toNat).counterRead page.toNat n.toNat).toNat % 2 ^ 32)))) := by
  simp only [exec, execCounterLowRead, h, if_true]

theorem exec_counterLowRead_closed (n : BitVec 8) (a : (pageInfo page.toNat).isSome = true) (h : s.answers req page.toNat = false) :
    exec (.counterLowRead req page n) s = .next (s.emit (.readValue req.val 0)) := by
  have bound : 0x800 + 8 * n.toNat < 4096 := by omega
  have aligned : (0x800 + 8 * n.toNat) % 4 = 0 := by omega
  simp [exec, execCounterLowRead, h, State.offPage_assigned s req false a bound aligned]

theorem exec_eventForce (bits : W32) (h : s.eventOpen req page.toNat = true) :
    exec (.eventForce req page bits) s = .next ((s.settledFor page.toNat).modPage page.toNat (·.drive s.clock bits)) := by
  simp only [exec, execEventForce, h, if_true]

theorem exec_eventLatchClear (bits : W32) (h : s.eventOpen req page.toNat = true) :
    exec (.eventLatchClear req page bits) s =
      .next (((s.settledFor page.toNat).modPage page.toNat
        (·.clearLatch s.clock (bits &&& ~~~(s.heldLevel page.toNat)))).lapse page.toNat) := by
  simp only [exec, execEventLatchClear, h, if_true]

theorem exec_errCauseClear (h : s.eventOpen req page.toNat = true) :
    exec (.errCauseClear req page) s = .next ((s.settledFor page.toNat).modPage page.toNat (·.clearErr s.clock)) := by
  simp only [exec, execErrCauseClear, h, if_true]

/-- The event path of a page that does not take a write there (R20, R33). -/
theorem exec_events_closed (bits : W32) (a : (pageInfo page.toNat).isSome = true) (h : s.eventOpen req page.toNat = false) :
    exec (.eventForce req page bits) s = .next s ∧ exec (.eventLatchClear req page bits) s = .next s
      ∧ exec (.errCauseClear req page) s = .next s := by
  refine ⟨?_, ?_, ?_⟩
  · simp [exec, execEventForce, h, State.offPage_assigned s req true a]
  · simp [exec, execEventLatchClear, h, State.offPage_assigned s req true a]
  · simp [exec, execErrCauseClear, h, State.offPage_assigned s req true a]

theorem exec_telClear {k : Cl} {j : Fin 32} (h : s.pageOpen req (pgTelemetry k.val j.val) = true) :
    exec (.telClear req k j) s = .next (s.modCl k.val (State.clearStalls j.val)) := by
  simp only [exec, execTelClear, h, if_true]
  rfl

/-! ### What they leave -/

theorem gives_enable (n : Nat) (addr : BitVec 28) (v : W32) (ha : addr.toNat = 4096 * n + 0x14) (h : s.eventOpen req n = true) :
    Gives (.registerWrite req addr v) s fun t =>
      t.page n = { s.page n with enable := v } ∧ OnlyPages [n] s t ∧ ChangesOnly [.pages, .irq] s t := by
  refine ⟨_, congrArg Host.Outcome.next (s.writeAt_enable v ha h), by simp, fun m hm => ?_, ?_⟩
  · rw [State.lapse_page]
    exact s.onlyPages_modPage n _ m hm
  · exact ((s.modPage_frame n _).mono (by decide)).andThen (State.lapse_frame _ n) (by decide)

theorem gives_ctrClear (h : s.pageOpen req page.toNat = true) :
    Gives (.ctrClear req page) s fun t =>
      (∀ c, c < 256 → ¬(page.toNat = pgMtime ∧ c = 0) → t.counterRead page.toNat c = 0)
      ∧ t.mt = s.mt ∧ OnlyPages [page.toNat] (s.settledFor page.toNat) t := by
  refine ⟨_, exec_ctrClear h, fun c hc notTime => State.counterRead_clearCounters _ hc notTime, by simp, fun m hm => ?_⟩
  rw [State.clearCounters_page]
  exact State.onlyPages_modPage _ _ _ m hm

theorem gives_counterLowRead (n : BitVec 8) (h : s.answers req page.toNat = true) :
    Gives (.counterLowRead req page n) s fun t =>
      let u := s.settledFor page.toNat
      let v := u.counterRead page.toNat n.toNat
      t.out = s.out ++ [.readValue req.val (BitVec.ofNat 64 (v.toNat % 2 ^ 32))]
      ∧ t.counterWord req.val page.toNat (0x804 + 8 * n.toNat) = v.toNat / 2 ^ 32 ∧ OnlyPages [page.toNat] u t := by
  refine ⟨_, exec_counterLowRead n h, ?_, State.counterWord_snapshot _ req _ _, fun m hm => ?_⟩
  · rw [← s.settledFor_out page.toNat]
    rfl
  · rw [State.emit_page]
    exact State.onlyPages_snapshot _ _ _ _ m hm

theorem gives_eventForce (bits : W32) (h : s.eventOpen req page.toNat = true) :
    Gives (.eventForce req page bits) s fun t =>
      let g := (s.settledFor page.toNat).page page.toNat
      t.page page.toNat = { g with latch := g.latch ||| bits, driven := (t.page page.toNat).driven }
      ∧ (t.page page.toNat).drivenAt s.clock = g.drivenAt s.clock ||| bits ∧ OnlyPages [page.toNat] (s.settledFor page.toNat) t := by
  refine ⟨_, exec_eventForce bits h, ?_, ?_, State.onlyPages_modPage _ _ _⟩
  · rw [State.page_modPage_self]
    rfl
  · rw [State.page_modPage_self, State.drivenAt_drive]

theorem gives_eventLatchClear (bits : W32) (h : s.eventOpen req page.toNat = true) :
    Gives (.eventLatchClear req page bits) s fun t =>
      let u := s.settledFor page.toNat
      let g := u.page page.toNat
      t.page page.toNat = { g with latch := g.latch &&& ~~~(bits &&& ~~~(u.levelRead page.toNat ||| g.drivenAt s.clock)) }
      ∧ OnlyPages [page.toNat] u t := by
  refine ⟨_, exec_eventLatchClear bits h, ?_, fun m hm => ?_⟩
  · rw [State.lapse_page, State.page_modPage_self, State.clearLatch_held, State.levelRead, State.settledFor_heldLevel]
  · rw [State.lapse_page]
    exact State.onlyPages_modPage _ _ _ m hm

theorem gives_errCauseClear (h : s.eventOpen req page.toNat = true) :
    Gives (.errCauseClear req page) s fun t =>
      let g := (s.settledFor page.toNat).page page.toNat
      (g.errCycle ≠ s.clock + 1 → t.page page.toNat = { g with err := 0 })
      ∧ (g.errCycle = s.clock + 1 → t.page page.toNat = { g with err := errFold 0 g.errs, errBase := 0 })
      ∧ OnlyPages [page.toNat] (s.settledFor page.toNat) t := by
  refine ⟨_, exec_errCauseClear h, fun old => ?_, fun now => ?_, State.onlyPages_modPage _ _ _⟩
  · rw [State.page_modPage_self, Page.clearErr, if_neg old]
  · rw [State.page_modPage_self, Page.clearErr, if_pos now]

theorem gives_telClear {k : Cl} {j : Fin 32} (h : s.pageOpen req (pgTelemetry k.val j.val) = true) :
    Gives (.telClear req k j) s fun t =>
      (∀ i, i < 32 → (t.core k.val (32 * i + j.val)).stalls = [])
      ∧ (∀ n, n % 32 ≠ j.val → t.core k.val n = s.core k.val n) ∧ OnlyClusters [k.val] s t := by
  have core (n : Nat) : (s.modCl k.val (State.clearStalls j.val)).core k.val n =
      if n % 32 = j.val then { s.core k.val n with stalls := [] } else s.core k.val n := by
    simp [State.core, State.core_clearStalls]
  refine ⟨_, exec_telClear h, fun i _ => ?_, fun n hn => ?_, fun m hm => s.cl_modCl_ne _ (by simpa using hm)⟩
  · have hj : (32 * i + j.val) % 32 = j.val := by omega
    rw [core, if_pos hj]
  · rw [core, if_neg hn]

end commands

/-! ### The statements -/

/-- Settles O1, by the branch of `step` that the queue picks. -/
theorem stepRunsFrontCommand : Obligations.StepRunsFrontCommand := by
  refine ⟨fun s c rest queued => ?_, fun s empty => ?_⟩
  · simp only [step, queued]
  · simp only [step, empty, State.idle]

/-- Settles O2, command by command: `exec` on a page that answers, and on one that does not. -/
theorem pageRegistersChange : Obligations.PageRegistersChange :=
  ⟨⟨fun _ addr v _ n ha h => gives_enable n addr v ha h, fun _ _ _ h => gives_ctrClear h,
      fun _ _ n _ h => gives_counterLowRead n h, fun _ _ bits _ h => gives_eventForce bits h,
      fun _ _ bits _ h => gives_eventLatchClear bits h, fun _ _ _ h => gives_errCauseClear h, fun _ _ _ _ h => gives_telClear h⟩,
    fun _ _ bits _ a =>
      ⟨exec_ctrClear_closed a, exec_events_closed bits a, fun h n => exec_counterLowRead_closed n a h⟩⟩

end Sys2Proof.Machine
end

section
/-! Two commands that wait, and so change a clock that `partsOf` does not name for them: the end of a link's training (R446) and the
write of a held wake token (R341). -/
namespace Sys2Proof.Machine
namespace State
variable (s : State)

/-! ### Frames of what a link's failure and a token's delivery do -/

theorem pulseLink_frame (l e : Nat) : ChangesOnly [.pages] s (s.pulseLink l e) := s.pulse_frame _ _

theorem countLink_frame (l c n : Nat) : ChangesOnly [.pages] s (s.countLink l c n) := .ite .refl (s.count_frame _ _ _)

theorem stopChannels_frame (l : Nat) : ChangesOnly [.pages, .harness] s (s.stopChannels l) := by
  unfold stopChannels
  dsimp only
  exact .ite ((s.modLink_frame l _).mono (by decide))
    (((s.modLink_frame l _).mono (by decide)).andThen (pulseLink_frame _ l 4) (by decide))

theorem failLink_frame (l : Nat) (mode : LinkMode) (reason : Nat) :
    ChangesOnly [.pages, .harness] s (s.failLink l mode reason) := by
  unfold failLink
  refine .ite ((s.modLink_frame l _).mono (by decide)) ?_
  have counted := ((s.report_frame (pgTrunk (trunkOf l)) 0 0x65 0).trans (countLink_frame _ l 15 (s.link l).replay.length)).mono
    (qs := [.pages, .harness]) (by decide)
  have stopped := (counted.trans (stopChannels_frame _ l)).andThen (pulseLink_frame _ l 2) (by decide)
  exact stopped.andThen (modLink_frame _ l _) (by decide)

theorem firstFull_frame (before s : State) (k : Nat) : ChangesOnly [.clusters] s (before.firstFull s k) :=
  .ite (s.modCl_frame k _) .refl

theorem deliver_frame (k n q : Nat) (tok : Token) (rank : Nat) :
    ChangesOnly [.pages, .clusters] s (s.deliver k n q tok rank) := by
  have settled := (s.modCore_frame k n (·.settleSlack s.clock)).mono (qs := [.pages, .clusters]) (by decide)
  unfold deliver
  refine settled.trans (.ite ?invalid ?_)
  case invalid => exact ((coreExc_frame _ k n 2 q).mono (by decide)).andThen (modCl_frame _ k _) (by decide)
  split
  · exact (lateToken_frame _ _ _ _ _ _ _ _).andThen (modCl_frame _ k _) (by decide)
  · refine .ite ((modCore_frame _ k n _).mono (by decide)) (.ite ?dropped ?queued)
    case dropped => exact ((pulse_frame _ _ _).trans (count_frame _ _ _ _)).mono (by decide)
    case queued => exact ((modCore_frame _ k n _).trans (firstFull_frame _ _ k)).mono (by decide)

/-- Held wake token `w` of cluster `k` taken out, which ungates its core where it is the last that gates it (R341). -/
def takeWake (k : Nat) (w : HeldWake) : State :=
  let s := s.modCl k fun c => { c with heldWakes := listErase c.heldWakes w }
  if w.gates then s.modCore k w.core fun x => { x with gates := x.gates - 1 } else s

theorem takeWake_frame (k : Nat) (w : HeldWake) : ChangesOnly [.clusters] s (s.takeWake k w) :=
  .ite ((s.modCl_frame k _).trans (modCore_frame _ k w.core _)) (s.modCl_frame k _)

end State

/-! ### What the two commands wait for -/

/-- A training that does not complete ends 200 ms after its start, in management cycles (R446, R7). -/
theorem gives_linkTraining_timeout {l : Fin 48} {s : State} (training : (s.link l.val).mode = .training) :
    Gives (.linkTraining l none) s fun t => t.mgmtClock = max s.mgmtClock ((s.link l.val).trainAt + 2 * cycles100ms) := by
  have run : exec (.linkTraining l none) s =
      .next ((s.reachMgmt ((s.link l.val).trainAt + 2 * cycles100ms)).failLink l.val .failed 0) := by
    simp [exec, execLinkTraining, training]
  exact ⟨_, run, (State.failLink_frame _ l.val .failed 0).2 .mgmtClock (by decide)⟩

theorem exec_wakeTokenWrite {k : Cl} {s : State} {w : HeldWake} (next : (s.cl k.val).nextWake s.clock = some w) :
    exec (.wakeTokenWrite k) s =
      .next ((((s.reachClock w.ready).takeWake k.val w).deliver k.val w.core w.queue w.tok).active k.val) := by
  simp only [exec, execWakeTokenWrite, next]
  rfl

/-- The next held wake token is written in the cycle in which it may be (R341, R342). -/
theorem gives_wakeTokenWrite {k : Cl} {s : State} {w : HeldWake} (next : (s.cl k.val).nextWake s.clock = some w) :
    Gives (.wakeTokenWrite k) s fun t => t.clock = max s.clock w.ready := by
  refine ⟨_, exec_wakeTokenWrite next, ?_⟩
  have written := (((State.takeWake_frame (s.reachClock w.ready) k.val w).mono (by decide)).trans
    (State.deliver_frame _ k.val w.core w.queue w.tok 0)).andThen (State.active_frame _ k.val) (by decide)
  exact (written.2 .clock (by decide)).trans (s.reachClock_clock w.ready)

/-- A module whose cluster 0 holds a wake token for its core 0 that may be written from cycle 1 on. -/
def holdingWake : State := { State.reset with clusters := [(0, { heldWakes := [⟨0, 0, {}, false, 1⟩] })] }

/-- WAKE_TOKEN_WRITE changes the clock too, which `partsOf` does not name for it. -/
theorem not_frame_wakeTokenWrite : ¬ Frame (.wakeTokenWrite 0) (partsOf (.wakeTokenWrite 0)) := by
  intro frame
  have next : (holdingWake.cl (0 : Cl).val).nextWake holdingWake.clock = some ⟨0, 0, {}, false, 1⟩ := by decide +kernel
  obtain ⟨t, run, late⟩ := gives_wakeTokenWrite next
  have same : t.clock = 0 := (frame _ t run).2 .clock (by decide)
  rw [same] at late
  exact absurd late (by decide)

/-- Refutes O60: LINK_TRAINING without a peer's answer lets the management clock reach the end of its 200 ms, and `partsOf` does not
name that clock for it. Link 0 is in training since management cycle 0. -/
theorem not_commandsKeepTheirFrames : ¬ Obligations.CommandsKeepTheirFrames := by
  intro frames
  have training : (({ State.reset with harness := { links := [(0, { mode := .training })] } } : State).link 0).mode = .training := rfl
  obtain ⟨t, run, late⟩ := gives_linkTraining_timeout (l := 0) training
  have same : t.mgmtClock = 0 := (frames _ _ t run).2 .mgmtClock (by decide)
  rw [same] at late
  exact absurd late (by decide)

end Sys2Proof.Machine
end
